-- ==== Sys2Proof/Word.lean ====
section
/-! DEFINITION. The widths of the block's values and the named sets its fields, operands and trace records range over
(spec/00_scope.md R9, R11; spec/10_state.md R22 to R44; spec/30_encoding.md R80). No behaviour stands here. -/

namespace Sys2Proof

/-- A byte of the serialised operation stream (R52). -/
abbrev Byte := BitVec 8
/-- An operation word or a trace record (R70, R80). -/
abbrev OpWord := BitVec 64
/-- The two line levels of a sample (R72). -/
abbrev U2 := BitVec 2
/-- The decoder's history (R22). -/
abbrev U4 := BitVec 4
/-- A timer position, a compare value or one byte of a duration (R26, R30, R34). -/
abbrev U8 := BitVec 8
/-- A duration in ticks (R35, R74). -/
abbrev U16 := BitVec 16
/-- A two's-complement signed 8-bit value (R11); it is read with `BitVec.toInt`. -/
abbrev I8 := BitVec 8

/-- The two output channels (R13). -/
inductive Channel where
  | a | b
  deriving DecidableEq, Repr

/-- A channel's stage (R33). -/
inductive Phase where
  | activeStart | inactiveStart | inactiveContinue | inactiveFinish
  deriving DecidableEq, Repr

/-- The logical level of an output pin (R38). -/
inductive PinLevel where
  | inactive | active
  deriving DecidableEq, Repr

/-- What a compare unit does to its pin on a match (R31). -/
inductive OutputAction where
  | hold | driveInactive
  deriving DecidableEq, Repr

/-- Which channel last started the timer (R28). -/
inductive Owner where
  | none | a | b
  deriving DecidableEq, Repr

/-- The scheduler's control state (R40). -/
inductive SchedState where
  | inspect | waitA | commitA | waitB | commitB
  deriving DecidableEq, Repr

/-- The block's fault codes (R182). -/
inductive FaultCode where
  | illegalOp | zeroDuration | rearmInFlight | overlap
  deriving DecidableEq, Repr

/-- The two readings of the detent condition (R9, R107). -/
inductive DetentRule where
  | fullHistory | sampleRest
  deriving DecidableEq, Repr

/-- An electrical level of an output line (R9, `ACTIVE_LEVEL`). -/
inductive ElectricalLevel where
  | high | low
  deriving DecidableEq, Repr, Inhabited

/-- The agents whose steps the operation words are (R8). -/
inductive Agent where
  | encoder | timer | scheduler | testHost
  deriving DecidableEq, Repr

/-- The two execution contexts (R195). -/
inductive Context where
  | interrupt | foreground
  deriving DecidableEq, Repr

/-- One value for each of the two channels. -/
structure PerChannel (α : Type) where
  a : α
  b : α
  deriving DecidableEq, Repr

/-- The trace records the block emits (R80 to R84). -/
inductive TraceRecord where
  /-- EV_CW (0x80): the clockwise callback fires. -/
  | evCw
  /-- EV_CCW (0x81): the counter-clockwise callback fires. -/
  | evCcw
  /-- COUNTER (0x82): the counter's new value. -/
  | counter (value : I8)
  /-- PIN (0x83): channel `ch`'s new level. -/
  | pin (ch : Channel) (level : PinLevel)
  /-- FINISHED (0x84). -/
  | finished (ch : Channel)
  /-- POLLRES (0x85): the value of `finished` a host POLL read. -/
  | pollRes (ch : Channel) (value : Bool)
  /-- FAULT (0x86): the fault code, and the channel of a faulting ARM (else A). -/
  | fault (code : U8) (ch : Channel)
  /-- ARMED (0x87). -/
  | armed (ch : Channel) (act inact : U16)
  /-- MATCH_P (0x90 + p): the phase whose handler ran, and the position of the match. -/
  | compareMatch (p : Phase) (ch : Channel) (position : U8)
  deriving DecidableEq, Repr

end Sys2Proof
end

