-- ==== Sys2Proof/Config.lean ====
section
/-! DEFINITION. The launch parameters (spec/00_scope.md R9, R10), the free values that stand for the parameters the spec
leaves OPEN, and the free draw of LEAD_CHECK (spec/41_channel_engine.md R144). -/

namespace Sys2Proof

/-- A requested pair of durations, in ticks (R9). -/
structure Durations where
  active   : Nat
  inactive : Nat
  deriving DecidableEq, Repr

/-- The parameters of R9, fixed at launch (R213). -/
structure Config where
  /-- `COUNTER_LIMIT` (N): the saturation bound of the pulse counter. -/
  counterLimit : Nat
  /-- `ACTIVE_TICKS`. -/
  activeTicks : Nat
  /-- `INACTIVE_TICKS`. -/
  inactiveTicks : Nat
  /-- The separate pairs of R10 (channel A's, channel B's); `none` when both channels use
  `ACTIVE_TICKS` and `INACTIVE_TICKS`. -/
  perChannel : Option (Durations × Durations)
  /-- `DETENT_RULE`. -/
  detentRule : DetentRule
  /-- `CW_WIRED`. -/
  cwWired : Bool
  /-- `CCW_WIRED`. -/
  ccwWired : Bool
  /-- `ACTIVE_LEVEL`. -/
  activeLevel : ElectricalLevel
  /-- `PRESCALE`: CPU clocks per tick. -/
  prescale : Nat
  /-- `MIN_LEAD`: the smallest compare distance a handler is sure of catching. -/
  minLead : Nat
  deriving DecidableEq, Repr

/-- FREE VALUE (log entry 6): `ACTIVE_TICKS` less one, OPEN in R9. -/
opaque Config.openActive : Fin 65535
/-- FREE VALUE (log entry 6): `INACTIVE_TICKS` less one, OPEN in R9. -/
opaque Config.openInactive : Fin 65535
/-- FREE VALUE (log entry 6): `ACTIVE_LEVEL`, OPEN in R9. -/
opaque Config.openLevel : ElectricalLevel
/-- FREE VALUE (log entry 6): `PRESCALE` less one, OPEN in R9. -/
opaque Config.openPrescale : Nat

/-- FREE VALUE (log entry 8): the outcome `missed` of the n-th draw of LEAD_CHECK (R144; spec/93 U14). -/
opaque Config.missedDraw : Nat → Bool

/-- R9's defaults, with a free value in the range R9 gives for each parameter that has none. -/
def Config.reference : Config where
  counterLimit := 5
  activeTicks := Config.openActive.val + 1
  inactiveTicks := Config.openInactive.val + 1
  perChannel := none
  detentRule := .fullHistory
  cwWired := true
  ccwWired := true
  activeLevel := Config.openLevel
  prescale := Config.openPrescale + 1
  minLead := 1

end Sys2Proof
end

