-- ==== Sys2Proof/Syntax.lean ====
section
/-! DEFINITION. The five operations of spec/opcode_table.json (spec/30_encoding.md R71 to R76). -/

namespace Sys2Proof

/-- An operation word, decoded. -/
inductive Instr where
  /-- SAMPLE: one pin-change interrupt of the decoder with the two line levels (R72, R111). -/
  | sample (raw : U2)
  /-- TICK: one prescaled timer tick (R73, R122). -/
  | tick
  /-- ARM: `start(act, inact)` on a channel (R74, R127). -/
  | arm (ch : Channel) (act inact : U16)
  /-- POLL: one read of a channel's `finished` flag (R75, R140). -/
  | poll (ch : Channel)
  /-- STEP: one atomic step of the scheduler (R76, R161). -/
  | step
  deriving DecidableEq, Repr

end Sys2Proof
end

