-- ==== Sys2Proof/WellFormed.lean ====
section
/-! DEFINITION. The constraints on a configuration (spec/00_scope.md R9, spec/60_exceptions.md R186) and on a decoded
operation (none: spec/30_encoding.md R72 to R76 admit every value of every operand). -/

namespace Sys2Proof

/-- `1 ≤ v ≤ 65535` for both durations (R9). -/
def Durations.wellFormed (d : Durations) : Bool :=
  decide (1 ≤ d.active) && decide (d.active ≤ 65535) &&
    decide (1 ≤ d.inactive) && decide (d.inactive ≤ 65535)

/-- The constraint column of R9's table; R10's separate pairs obey the same bounds (log entry 7). -/
def Config.wellFormed (c : Config) : Bool :=
  decide (1 ≤ c.counterLimit) && decide (c.counterLimit ≤ 127) &&
    Durations.wellFormed ⟨c.activeTicks, c.inactiveTicks⟩ &&
    (match c.perChannel with
      | none => true
      | some (da, db) => da.wellFormed && db.wellFormed) &&
    decide (1 ≤ c.prescale) && decide (1 ≤ c.minLead)

/-- Every decoded operation is well formed: each operand has the width of its field (R87), and a zero duration is
decodable (R74). -/
def Instr.wellFormed (i : Instr) : Bool :=
  match i with
  | .sample _ => true
  | .tick => true
  | .arm _ _ _ => true
  | .poll _ => true
  | .step => true

end Sys2Proof
end

