-- ==== Sys2Proof/Decode.lean ====
section
/-! DEFINITION. The operation words (spec/30_encoding.md R70 to R78), their serialisation in bytes (spec/20_memory.md
R52, R53), the encoder of operations, and the words of the trace records (R80). -/

namespace Sys2Proof

/-! ### The numeric codes of the named sets -/

/-- 0 = A, 1 = B (R70). -/
def Channel.code : Channel → BitVec 1
  | .a => 0
  | .b => 1

def Channel.ofCode (v : BitVec 1) : Channel :=
  if v = 0 then .a else .b

/-- The phase codes of R33. -/
def Phase.code : Phase → U2
  | .activeStart => 0
  | .inactiveStart => 1
  | .inactiveContinue => 2
  | .inactiveFinish => 3

def Phase.ofCode (v : U2) : Phase :=
  if v = 0 then .activeStart
  else if v = 1 then .inactiveStart
  else if v = 2 then .inactiveContinue
  else .inactiveFinish

/-- INACTIVE 0, ACTIVE 1 (R38). -/
def PinLevel.code : PinLevel → BitVec 1
  | .inactive => 0
  | .active => 1

def PinLevel.ofCode (v : BitVec 1) : PinLevel :=
  if v = 0 then .inactive else .active

/-- HOLD 0, DRIVE_INACTIVE 1 (R31). -/
def OutputAction.code : OutputAction → BitVec 1
  | .hold => 0
  | .driveInactive => 1

/-- NONE 0, A 1, B 2 (R28). -/
def Owner.code : Owner → U2
  | .none => 0
  | .a => 1
  | .b => 2

/-- The encoding 0 to 4 of R40. -/
def SchedState.code : SchedState → BitVec 3
  | .inspect => 0
  | .waitA => 1
  | .commitA => 2
  | .waitB => 3
  | .commitB => 4

/-- The fault codes 1 to 4 of R182. -/
def FaultCode.code : FaultCode → U8
  | .illegalOp => 1
  | .zeroDuration => 2
  | .rearmInFlight => 3
  | .overlap => 4

/-! ### The fields of a word (R70) -/

def opField (w : OpWord) : U8 := w.extractLsb' 56 8
def channelField (w : OpWord) : BitVec 1 := w.extractLsb' 48 1
def actField (w : OpWord) : U16 := w.extractLsb' 16 16
def inactField (w : OpWord) : U16 := w.extractLsb' 0 16
def byteField (w : OpWord) : U8 := w.extractLsb' 0 8
def rawField (w : OpWord) : U2 := w.extractLsb' 0 2
def bitField (w : OpWord) : BitVec 1 := w.extractLsb' 0 1

/-! ### Decoding -/

/-- One row of spec/opcode_table.json: the fixed bits, and the operation built from the fields. -/
structure OpcodeRow where
  pattern : OpWord
  mask    : OpWord
  build   : OpWord → Instr

/-- The rows of R72 to R76, in the table's order. -/
def opcodeRows : List OpcodeRow :=
  [ ⟨0x0100000000000000#64, 0xFFFFFFFFFFFFFFFC#64, fun w => .sample (rawField w)⟩,
    ⟨0x0200000000000000#64, 0xFFFFFFFFFFFFFFFF#64, fun _ => .tick⟩,
    ⟨0x0300000000000000#64, 0xFFFEFFFF00000000#64,
      fun w => .arm (Channel.ofCode (channelField w)) (actField w) (inactField w)⟩,
    ⟨0x0400000000000000#64, 0xFFFEFFFFFFFFFFFF#64, fun w => .poll (Channel.ofCode (channelField w))⟩,
    ⟨0x0500000000000000#64, 0xFFFFFFFFFFFFFFFF#64, fun _ => .step⟩ ]

/-- The bits a row fixes are as the row's pattern has them. -/
def OpcodeRow.fits (r : OpcodeRow) (w : OpWord) : Bool := w &&& r.mask == r.pattern

/-- The two ways a word is illegal (R77). -/
inductive IllegalWord where
  /-- `op` is not one of 0x01 to 0x05: 0x00, the reserved 0x06 to 0x7F, the trace opcodes 0x80 to 0xFF. -/
  | unknownOpcode
  /-- A bit that the opcode's mask fixes differs from the match. -/
  | fixedBitWrong
  deriving DecidableEq, Repr

/-- What a 64-bit word is: one of the five operations, or illegal by name (R78). -/
inductive DecodedWord where
  | operation (i : Instr)
  | illegal (why : IllegalWord)
  deriving DecidableEq, Repr

/-- `op` is one of 0x01 to 0x05 (R71). -/
def opcodeKnown (op : U8) : Bool := decide (1 ≤ op.toNat) && decide (op.toNat ≤ 5)

/-- The decoder of operation words (R77, R78). -/
def decodeWord (w : OpWord) : DecodedWord :=
  match opcodeRows.find? (fun r => r.fits w) with
  | some r => .operation (r.build w)
  | none => .illegal (if opcodeKnown (opField w) then .fixedBitWrong else .unknownOpcode)

/-- The bytes of a word, byte 0 (bits 7 to 0) first (R52). -/
def wordBytes (w : OpWord) : List Byte :=
  [w.extractLsb' 0 8, w.extractLsb' 8 8, w.extractLsb' 16 8, w.extractLsb' 24 8,
   w.extractLsb' 32 8, w.extractLsb' 40 8, w.extractLsb' 48 8, w.extractLsb' 56 8]

/-- The word that eight bytes serialise, byte 0 the least significant (R52). -/
def wordOfBytes (b0 b1 b2 b3 b4 b5 b6 b7 : Byte) : OpWord :=
  b7 ++ b6 ++ b5 ++ b4 ++ b3 ++ b2 ++ b1 ++ b0

/-- What stands at the input boundary, and the bytes after it (R53). -/
inductive Fetched where
  /-- No byte is left: the environment delivers no further operation. -/
  | endOfStream
  /-- One to seven bytes: not an operation (R53). -/
  | partialWord
  /-- A whole word that encodes no operation (R77). -/
  | illegal (why : IllegalWord) (rest : List Byte)
  /-- A whole word that is an operation. -/
  | operation (i : Instr) (rest : List Byte)
  deriving DecidableEq, Repr

/-- Reads one operation word from the serialised stream; total on any bytes. -/
def decodeBytes (bytes : List Byte) : Fetched :=
  match bytes with
  | [] => .endOfStream
  | b0 :: b1 :: b2 :: b3 :: b4 :: b5 :: b6 :: b7 :: rest =>
    match decodeWord (wordOfBytes b0 b1 b2 b3 b4 b5 b6 b7) with
    | .operation i => .operation i rest
    | .illegal why => .illegal why rest
  | _ => .partialWord

/-- The instruction the decoder reads from a table row's bits (numbered as spec/opcode_table.json numbers them: bit 0 is
bit 0 of the 64-bit word); bits above `nbits` are 0. -/
def decodeTableWord (nbits w : Nat) : Option Instr :=
  match decodeBytes (wordBytes (BitVec.ofNat 64 (w % 2 ^ nbits))) with
  | .operation i _ => some i
  | _ => none

/-! ### Encoding -/

/-- The opcode of an operation (R71). -/
def Instr.opcode (i : Instr) : U8 :=
  match i with
  | .sample _ => 0x01
  | .tick => 0x02
  | .arm _ _ _ => 0x03
  | .poll _ => 0x04
  | .step => 0x05

/-- A word with the layout of R70: `op`, seven zero bits, `ch`, sixteen zero bits, and the low 32 bits. -/
def layout (op : U8) (ch : BitVec 1) (low : BitVec 32) : OpWord :=
  op ++ 0#7 ++ ch ++ 0#16 ++ low

/-- The word of an operation (R70, R72 to R76). -/
def encode (i : Instr) : OpWord :=
  match i with
  | .sample raw => layout i.opcode 0 (0#30 ++ raw)
  | .tick => layout i.opcode 0 0
  | .arm ch act inact => layout i.opcode ch.code (act ++ inact)
  | .poll ch => layout i.opcode ch.code 0
  | .step => layout i.opcode 0 0

/-- The low 32 bits of a record whose value is one byte. -/
def lowByte (v : U8) : BitVec 32 := 0#24 ++ v

/-- The low 32 bits of a record whose value is one bit. -/
def lowBit (v : BitVec 1) : BitVec 32 := 0#31 ++ v

/-- The word of a trace record (R80, with the field layout of R70). -/
def TraceRecord.encode (r : TraceRecord) : OpWord :=
  match r with
  | .evCw => layout 0x80 0 0
  | .evCcw => layout 0x81 0 0
  | .counter v => layout 0x82 0 (lowByte v)
  | .pin ch level => layout 0x83 ch.code (lowBit level.code)
  | .finished ch => layout 0x84 ch.code 0
  | .pollRes ch v => layout 0x85 ch.code (lowBit (if v then 1 else 0))
  | .fault code ch => layout 0x86 ch.code (lowByte code)
  | .armed ch act inact => layout 0x87 ch.code (act ++ inact)
  | .compareMatch p ch position => layout (0x90 + p.code.zeroExtend 8) ch.code (lowByte position)

/-- Reads a trace record back from its word; `none` where the word is no record. -/
def TraceRecord.decode (w : OpWord) : Option TraceRecord :=
  let ch := Channel.ofCode (channelField w)
  let r? : Option TraceRecord :=
    if opField w = 0x80 then some .evCw
    else if opField w = 0x81 then some .evCcw
    else if opField w = 0x82 then some (.counter (byteField w))
    else if opField w = 0x83 then some (.pin ch (PinLevel.ofCode (bitField w)))
    else if opField w = 0x84 then some (.finished ch)
    else if opField w = 0x85 then some (.pollRes ch (bitField w == 1))
    else if opField w = 0x86 then some (.fault (byteField w) ch)
    else if opField w = 0x87 then some (.armed ch (actField w) (inactField w))
    else if 0x90 ≤ (opField w).toNat ∧ (opField w).toNat ≤ 0x93 then
      some (.compareMatch (Phase.ofCode ((opField w).extractLsb' 0 2)) ch (byteField w))
    else none
  match r? with
  | some r => if r.encode = w then some r else none
  | none => none

end Sys2Proof
end

