-- ==== Sys2Proof/Machine/State.lean ====
section
/-! DEFINITION. The block's state (spec/10_state.md R22 to R44), the names of the ways a step can stop, and the state after
reset (spec/70_reset_and_hazards.md R210). -/

namespace Sys2Proof.Machine

/-- Compare unit A or B (R30, R31, R32, R44). -/
structure CompareUnit where
  /-- The compare value (R30). -/
  ocr  : U8
  /-- The output action on a match (R31). -/
  com  : OutputAction
  /-- The compare-match interrupt enable (R32); also 'in flight' (R121). -/
  ie   : Bool
  /-- The next match is missed (R44). -/
  skip : Bool
  deriving DecidableEq, Repr

/-- The state of one channel (R33 to R36). -/
structure ChannelState where
  /-- The stage (R33). -/
  phase    : Phase
  /-- The high byte of the remaining active duration (R34). -/
  aHi      : U8
  /-- Its low byte (R34). -/
  aLo      : U8
  /-- The remaining inactive duration (R35). -/
  inact    : U16
  /-- The pulse is finished (R36). -/
  finished : Bool
  deriving DecidableEq, Repr

/-- Everything the spec gives the block, with the launch parameters and the model's own two fields. -/
@[ext]
structure State where
  /-- The launch parameters (R9); no operation changes them (R213). -/
  cfg     : Config
  /-- The decoder's history (R22). -/
  hist    : U4
  /-- The decoder's phase accumulator (R23). -/
  acc     : I8
  /-- The pulse counter (R25). -/
  counter : I8
  /-- The timer's position (R26). -/
  tcnt    : U8
  /-- The timer counts (R27). -/
  running : Bool
  /-- The channel that last started the timer (R28). -/
  owner   : Owner
  /-- The compare units (R30 to R32, R44). -/
  cmp     : PerChannel CompareUnit
  /-- The channels (R33 to R36). -/
  chan    : PerChannel ChannelState
  /-- The output pins' logical levels (R38). -/
  pin     : PerChannel PinLevel
  /-- The scheduler's control state (R40). -/
  sched   : SchedState
  /-- The recorded fault code, 0 for none (R41). -/
  fault   : U8
  /-- The trace, oldest record first (R15). -/
  trace   : List TraceRecord
  /-- The model's own field (log entry 1): the bytes of the operation words delivered and not yet taken, in order. -/
  input   : List Byte
  /-- The model's own field (log entry 8): how many draws LEAD_CHECK has made. -/
  draws   : Nat
  deriving DecidableEq, Repr

/-- How a step could end in a fault of the host's kind: it never does, so there is no constructor. The block's own faults
(R181) are states: `raise Fault` gives a next state with the code in `fault` (log entry 2). -/
inductive Fault where
  deriving DecidableEq, Repr

/-- Why a step is refused. -/
inductive Refusal where
  /-- An arm of `exec` whose instruction has no meaning yet; raised by no arm of this model. Safe. -/
  | notModelled (mnemonic : String)
  /-- Raised by every operation, legal or not, once `fault ≠ 0`: R181 refuses it. Safe: the spec's own stop. -/
  | faulted
  /-- Raised by `step` when one to seven bytes are left: R53 refuses a partial word, with no step. Safe. -/
  | partialWord
  /-- Raised by `step` when no byte is left: no operation was delivered, so there is no step (R7, R170; log entry 1). Safe. -/
  | endOfStream
  /-- Raised by `launch` for a configuration that breaks a constraint of R9 (R186). Safe. -/
  | badConfiguration
  deriving DecidableEq, Repr

/-- A compare unit after reset (R210). -/
def CompareUnit.reset : CompareUnit where
  ocr := 0
  com := .hold
  ie := false
  skip := false

/-- A channel after reset (R210). -/
def ChannelState.reset : ChannelState where
  phase := .activeStart
  aHi := 0
  aLo := 0
  inact := 0
  finished := false

/-- The reset state of R210 under a given configuration; no operation has been delivered yet. -/
def State.initial (c : Config) : State where
  cfg := c
  hist := 0b0000
  acc := 0
  counter := 0
  tcnt := 0
  running := false
  owner := .none
  cmp := ⟨CompareUnit.reset, CompareUnit.reset⟩
  chan := ⟨ChannelState.reset, ChannelState.reset⟩
  pin := ⟨.inactive, .inactive⟩
  sched := .inspect
  fault := 0
  trace := []
  input := []
  draws := 0

/-- The machine right after reset, launched with R9's defaults (the OPEN parameters are free values, log entry 6). -/
def State.reset : State := State.initial Config.reference

end Sys2Proof.Machine
end

