-- ==== Sys2Proof/Machine/Ops.lean ====
section
/-! DEFINITION. The named operations over the block's state: the channel-indexed fields (spec/00_scope.md R13), emitting a
record (R15), raising a fault (R14, spec/60_exceptions.md R181), the pins (spec/41_channel_engine.md R125), the counter
(spec/30_encoding.md R82), the timer (spec/41_channel_engine.md R127, R138) and the launch (R186). -/

namespace Sys2Proof.Machine

/-- An operation's outcome. -/
abbrev Result := Host.Outcome State Fault Refusal

/-- `other(ch)` of R127. -/
def otherChannel (ch : Channel) : Channel :=
  match ch with
  | .a => .b
  | .b => .a

/-- The owner value of a channel (R28). -/
def ownerOf (ch : Channel) : Owner :=
  match ch with
  | .a => .a
  | .b => .b

/-- The field of channel `ch`. -/
def pick {α : Type} (p : PerChannel α) (ch : Channel) : α :=
  match ch with
  | .a => p.a
  | .b => p.b

/-- `p` with the field of channel `ch` replaced. -/
def put {α : Type} (p : PerChannel α) (ch : Channel) (v : α) : PerChannel α :=
  match ch with
  | .a => { p with a := v }
  | .b => { p with b := v }

/-- `s.cmp[ch]` (R13). -/
def cmpOf (s : State) (ch : Channel) : CompareUnit := pick s.cmp ch
/-- `s.chan[ch]` (R13). -/
def chanOf (s : State) (ch : Channel) : ChannelState := pick s.chan ch
/-- `s.pin[ch]` (R38). -/
def pinOf (s : State) (ch : Channel) : PinLevel := pick s.pin ch

/-- `s.cmp[ch] <- u`. -/
def setCmp (ch : Channel) (u : CompareUnit) (s : State) : State := { s with cmp := put s.cmp ch u }
/-- `s.chan[ch] <- c`. -/
def setChan (ch : Channel) (c : ChannelState) (s : State) : State := { s with chan := put s.chan ch c }

/-- `emit(record)` (R15). -/
def emit (r : TraceRecord) (s : State) : State := { s with trace := s.trace ++ [r] }

/-- `setPin(ch, v)`: a PIN record only when the level changes (R125, R83). -/
def setPin (ch : Channel) (v : PinLevel) (s : State) : State :=
  if pinOf s ch = v then s
  else emit (.pin ch v) { s with pin := put s.pin ch v }

/-- The electrical level a pin's line has (R38, `ACTIVE_LEVEL` of R9); INACTIVE is the opposite level (log entry 18). -/
def electricalLevel (s : State) (ch : Channel) : ElectricalLevel :=
  match pinOf s ch, s.cfg.activeLevel with
  | .active, .high => .high
  | .active, .low => .low
  | .inactive, .high => .low
  | .inactive, .low => .high

/-- `s.counter <- v; emit(COUNTER(v))`, for a `v` that differs from the counter (R82). -/
def setCounter (v : I8) (s : State) : State := emit (.counter v) { s with counter := v }

/-- "prescaler/count is reset and (re)started": position 0, running, owned by `ch` (R127). -/
def startTimer (ch : Channel) (s : State) : State :=
  { s with tcnt := 0, running := true, owner := ownerOf ch }

/-- "stop the shared timer if this channel initiated it" (R138). -/
def stopTimerIfOwner (ch : Channel) (s : State) : State :=
  if s.owner = ownerOf ch then { s with running := false } else s

/-- `raise Fault(code)` applied to the step's PRE-state, so that every other effect of the step is discarded: the code is
recorded and one FAULT record emitted (R14, R181, R182). This is the block's one exception; nothing returns from it. -/
def raiseFault (code : FaultCode) (ch : Channel) (s : State) : State :=
  emit (.fault code.code ch) { s with fault := code.code }

/-- `if s.fault != 0: refuse`, and otherwise the operation completes in the state `t` (R181). -/
def completes (s t : State) : Result :=
  if s.fault = 0 then .next t else .refused .faulted

/-- An illegal word raises ILLEGAL_OP (R77, R183), unless the block is already faulted (R181; log entry 9). -/
def execIllegal (s : State) : Result := completes s (raiseFault .illegalOp .a s)

/-- The launch: a configuration that breaks a constraint of R9 is refused, and no state exists (R186); otherwise the
reset state (R210). -/
def launch (c : Config) : Result :=
  if c.wellFormed then .next (State.initial c) else .refused .badConfiguration

end Sys2Proof.Machine
end

