-- ==== Sys2Proof/Machine/Operands.lean ====
section
/-! DEFINITION. How operands are taken apart: the raw sample (spec/40_decoder.md R102), the bytes of a duration
(spec/00_scope.md R12), the compare distance (spec/41_channel_engine.md R124), the fit test (R129), and the scheduler's
durations (R88, R10). -/

namespace Sys2Proof.Machine

/-- `l <- raw XOR 0b11`: the active-low levels made logical (R102). -/
def normalise (raw : U2) : U2 := raw ^^^ 0b11#2

/-- `hi(d) = d[15:8]` (R12). -/
def hi (d : U16) : U8 := d.extractLsb' 8 8
/-- `lo(d) = d[7:0]` (R12). -/
def lo (d : U16) : U8 := d.extractLsb' 0 8

/-- `DIST(q, v) = ((v - q - 1) mod 256) + 1`: the ticks from position `q` to a match of `v` (R124). -/
def compareDistance (q v : U8) : Nat := (v - q - 1).toNat + 1

/-- `FITS(h, l)`: a remaining duration `256*h + l` fits in one timer cycle (R129). -/
def fits (h l : U8) : Bool := h == 0 || (h == 1 && l == 0)

/-- `rem <- 256 - p`: the ticks from position `p` to the wrap, 1 to 256 (R133). -/
def ticksToWrap (p : U8) : Nat := 256 - p.toNat

/-- The durations the scheduler asks for on a channel: `ACTIVE_TICKS` and `INACTIVE_TICKS` for both channels, or the
channel's own pair where separate pairs are configured (R88, R10; log entry 7). -/
def durationsOf (c : Config) (ch : Channel) : Durations :=
  match c.perChannel, ch with
  | none, _ => ⟨c.activeTicks, c.inactiveTicks⟩
  | some (da, _), .a => da
  | some (_, db), .b => db

/-- The active duration as ARM's 16-bit operand. -/
def requestedActive (c : Config) (ch : Channel) : U16 := BitVec.ofNat 16 (durationsOf c ch).active
/-- The inactive duration as ARM's 16-bit operand. -/
def requestedInactive (c : Config) (ch : Channel) : U16 := BitVec.ofNat 16 (durationsOf c ch).inactive

/-- The CPU clocks that `n` ticks take (R227): `PRESCALE` clocks each (log entry 19). -/
def clocksOfTicks (c : Config) (n : Nat) : Nat := n * c.prescale

end Sys2Proof.Machine
end

