-- ==== Sys2Proof/Machine/Flags.lean ====
section
/-! DEFINITION. The conditions the operations test: in flight (spec/41_channel_engine.md R121), a compare match and its
missed match (R124), rest (spec/40_decoder.md R107), held (spec/42_scheduler.md R164), quiescent (R170), and which agent
and context an operation belongs to (spec/00_scope.md R8, spec/60_exceptions.md R195). -/

namespace Sys2Proof.Machine

/-- A channel is in flight when its compare interrupt is enabled (R121). -/
def inFlight (s : State) (ch : Channel) : Bool := (cmpOf s ch).ie

/-- The counter is at unit `ch`'s compare value. -/
def atCompare (s : State) (ch : Channel) : Bool := s.tcnt == (cmpOf s ch).ocr

/-- `MATCHES(ch)`, evaluated after the increment (R124). -/
def matchesNow (s : State) (ch : Channel) : Bool := atCompare s ch && !(cmpOf s ch).skip

/-- `SKIP(ch)`'s effect: the one missed match is consumed (R124, R44). -/
def consumeSkip (ch : Channel) (s : State) : State :=
  if atCompare s ch && (cmpOf s ch).skip then setCmp ch { cmpOf s ch with skip := false } s else s

/-- `REST(h)` under the configured detent rule (R107). -/
def restNow (rule : DetentRule) (h : U4) : Bool :=
  match rule with
  | .fullHistory => h == 0b0000
  | .sampleRest => h.extractLsb' 0 2 == 0b00

/-- The counter may still rise: `s.counter < N` (R109). -/
def belowLimit (s : State) : Bool := decide (s.counter.toInt < (s.cfg.counterLimit : Int))

/-- The counter may still fall: `s.counter > -N` (R110). -/
def aboveLimit (s : State) : Bool := decide (-(s.cfg.counterLimit : Int) < s.counter.toInt)

/-- The scheduler is held: it waits for a `finished` that is still false (R164). -/
def held (s : State) : Bool :=
  match s.sched with
  | .waitA => !(chanOf s .a).finished
  | .waitB => !(chanOf s .b).finished
  | _ => false

/-- R170's quiescent state. -/
def quiescent (s : State) : Bool :=
  s.sched == .inspect && s.counter == 0 && !inFlight s .a && !inFlight s .b

/-- The agent whose step an operation is (R8; log entry 20). -/
def agentOf (i : Instr) : Agent :=
  match i with
  | .sample _ => .encoder
  | .tick => .timer
  | .arm _ _ _ => .testHost
  | .poll _ => .testHost
  | .step => .scheduler

/-- The execution context an operation runs in (R195). -/
def contextOf (i : Instr) : Context :=
  match agentOf i with
  | .encoder => .interrupt
  | .timer => .interrupt
  | .scheduler => .foreground
  | .testHost => .foreground

end Sys2Proof.Machine
end

