-- ==== Sys2Proof/Machine/Engine.lean ====
section
/-! DEFINITION. The Pulse Channel Engine and the shared timer: TICK, ARM, POLL and the four phase handlers
(spec/41_channel_engine.md R122 to R146). -/

namespace Sys2Proof.Machine

/-! ### Compare lead -/

/-- The compare just programmed on unit `ch` is closer than `MIN_LEAD` ticks (R144). -/
def leadTooShort (ch : Channel) (s : State) : Bool := decide (compareDistance s.tcnt (cmpOf s ch).ocr < s.cfg.minLead)

/-- `LEAD_CHECK(ch)` with the draw's outcome given: the draw is made, and recorded in `skip` (R144). -/
def drawLead (ch : Channel) (missed : Bool) (s : State) : State :=
  { setCmp ch { cmpOf s ch with skip := missed } s with draws := s.draws + 1 }

/-- `LEAD_CHECK(ch)`: a compare that is too close draws the free value `missed` (R144; log entry 8). -/
def leadCheck (ch : Channel) (s : State) : State :=
  if leadTooShort ch s then drawLead ch (Config.missedDraw s.draws) s else s

/-! ### The phase handlers -/

/-- `ACTIVE_FIT(ch)` (R131). -/
def activeFit (ch : Channel) (s : State) : State :=
  leadCheck ch
    (setChan ch { chanOf s ch with phase := .inactiveStart }
      (setCmp ch { cmpOf s ch with ocr := (chanOf s ch).aLo, com := .driveInactive } s))

/-- `ACTIVE_CHAIN(ch)` (R132). -/
def activeChain (ch : Channel) (s : State) : State :=
  setChan ch { chanOf s ch with aHi := (chanOf s ch).aHi - 1 }
    (setCmp ch { cmpOf s ch with ocr := 0 } s)

/-- `ACTIVE_DECIDE(ch)`, the ActiveStart handler (R130). -/
def activeDecide (ch : Channel) (s : State) : State :=
  if fits (chanOf s ch).aHi (chanOf s ch).aLo then activeFit ch s else activeChain ch s

/-- `INACTIVE_FIT(ch, p)` (R134). -/
def inactiveFit (ch : Channel) (p : U8) (s : State) : State :=
  leadCheck ch
    (setChan ch { chanOf s ch with phase := .inactiveFinish }
      (setCmp ch { cmpOf s ch with ocr := p + lo (chanOf s ch).inact } s))

/-- `INACTIVE_OVER(ch, rem)` (R135). -/
def inactiveOver (ch : Channel) (rem : Nat) (s : State) : State :=
  setChan ch { chanOf s ch with
      inact := (chanOf s ch).inact - BitVec.ofNat 16 rem, phase := .inactiveContinue }
    (setCmp ch { cmpOf s ch with ocr := 0 } s)

/-- `INACTIVE_START(ch)`, the InactiveStart handler (R133). -/
def inactiveStart (ch : Channel) (s : State) : State :=
  if (chanOf s ch).inact.toNat ≤ ticksToWrap (chanOf s ch).aLo then
    inactiveFit ch (chanOf s ch).aLo s
  else
    inactiveOver ch (ticksToWrap (chanOf s ch).aLo) s

/-- `INACTIVE_CONTINUE(ch)`, the InactiveContinue handler (R136). -/
def inactiveContinue (ch : Channel) (s : State) : State :=
  if fits (hi (chanOf s ch).inact) (lo (chanOf s ch).inact) then
    leadCheck ch
      (setChan ch { chanOf s ch with phase := .inactiveFinish }
        (setCmp ch { cmpOf s ch with ocr := lo (chanOf s ch).inact } s))
  else
    setChan ch { chanOf s ch with inact := (chanOf s ch).inact - 256 }
      (setCmp ch { cmpOf s ch with ocr := 0 } s)

/-- `INACTIVE_FINISH(ch)`, the terminal handler (R138). -/
def inactiveFinish (ch : Channel) (s : State) : State :=
  emit (.finished ch)
    (setChan ch { chanOf s ch with finished := true }
      (stopTimerIfOwner ch
        (setCmp ch { cmpOf s ch with ie := false } s)))

/-- `HANDLER[p](ch)`: one dispatch on the phase tag (R126). -/
def handler (p : Phase) (ch : Channel) (s : State) : State :=
  match p with
  | .activeStart => activeDecide ch s
  | .inactiveStart => inactiveStart ch s
  | .inactiveContinue => inactiveContinue ch s
  | .inactiveFinish => inactiveFinish ch s

/-! ### TICK -/

/-- The output action of a matching unit (R125). -/
def outputAction (ch : Channel) (s : State) : State :=
  match (cmpOf s ch).com with
  | .driveInactive => setPin ch .inactive s
  | .hold => s

/-- The interrupt of a matching unit: the MATCH record and the handler of the channel's phase, where the interrupt is
enabled (R122, R126, R84); nothing is latched where it is not (R146, R191). -/
def interruptOnMatch (ch : Channel) (s : State) : State :=
  if inFlight s ch then
    handler (chanOf s ch).phase ch (emit (.compareMatch (chanOf s ch).phase ch s.tcnt) s)
  else s

/-- What a matching unit does: its output action, then its interrupt (R125). -/
def serviceMatch (ch : Channel) (s : State) : State := interruptOnMatch ch (outputAction ch s)

/-- The running timer counts one tick (R123). -/
def advanceTimer (s : State) : State := { s with tcnt := s.tcnt + 1 }

/-- The list `M` of R122 is made after the increment, for both units, before either is serviced (log entry 17); then
A, then B. -/
def serviceUnits (s : State) : State :=
  let ready := consumeSkip .b (consumeSkip .a s)
  let afterA := if matchesNow s .a then serviceMatch .a ready else ready
  if matchesNow s .b then serviceMatch .b afterA else afterA

/-- One prescaled tick; a stopped timer does not count (R122, R123). -/
def tickEffect (s : State) : State :=
  if s.running then serviceUnits (advanceTimer s) else s

/-- TICK (R122). -/
def execTick (s : State) : Result := completes s (tickEffect s)

/-! ### ARM -/

/-- The fault an ARM raises, the first that applies in R192's order (R184, R185, R128). -/
def armFault (ch : Channel) (act inact : U16) (s : State) : Option FaultCode :=
  if inFlight s ch then some .rearmInFlight
  else if inFlight s (otherChannel ch) then some .overlap
  else if act == 0 || inact == 0 then some .zeroDuration
  else none

/-- The channel fields an ARM loads (R127). -/
def armedChannel (act inact : U16) : ChannelState where
  phase := .activeStart
  aHi := hi act
  aLo := lo act
  inact := inact
  finished := false

/-- The writes of an ARM that raises no fault, in R127's order. -/
def armEffect (ch : Channel) (act inact : U16) (s : State) : State :=
  let s := emit (.armed ch act inact) s
  let s := setChan ch (armedChannel act inact) s
  let s := setCmp ch { cmpOf s ch with com := .hold, skip := false } s
  let s := setPin ch .active s
  let s := startTimer ch s
  let s := activeDecide ch s
  setCmp ch { cmpOf s ch with ie := true } s

/-- `ARM(ch, act, inact)` as a part of a step, followed by `after` where no fault is raised (R127; a fault discards the
rest of the step, R14). -/
def armThen (ch : Channel) (act inact : U16) (after : State → State) (s : State) : State :=
  match armFault ch act inact s with
  | some code => raiseFault code ch s
  | none => after (armEffect ch act inact s)

/-- ARM (R127). -/
def execArm (ch : Channel) (act inact : U16) (s : State) : Result :=
  completes s (armThen ch act inact id s)

/-! ### POLL -/

/-- POLL (R140). -/
def execPoll (ch : Channel) (s : State) : Result :=
  completes s (emit (.pollRes ch (chanOf s ch).finished) s)

end Sys2Proof.Machine
end

