-- ==== Sys2Proof/Machine/Quadrature.lean ====
section
/-! DEFINITION. The Quadrature Decoder: SAMPLE and the two callbacks (spec/40_decoder.md R101 to R111). -/

namespace Sys2Proof.Machine

/-- `DELTA`, entries 0 to 15 (R104). -/
def deltaTable : List Int :=
  [0, -1, 1, 0, 1, 0, 0, -1, -1, 0, 0, 1, 0, 1, -1, 0]

/-- `DELTA[h]` (R104). -/
def delta (h : U4) : I8 := BitVec.ofInt 8 (deltaTable.getD h.toNat 0)

/-- `s.hist <- {s.hist[1:0], l}` (R103). -/
def shiftHistory (l : U2) (s : State) : State := { s with hist := s.hist.extractLsb' 0 2 ++ l }

/-- `s.acc <- s.acc + DELTA[s.hist]` (R105). -/
def accumulate (s : State) : State := { s with acc := s.acc + delta s.hist }

/-- `CW_CALLBACK()` (R109). -/
def cwCallback (s : State) : State :=
  if s.cfg.cwWired && belowLimit s then setCounter (s.counter + 1) s else s

/-- `CCW_CALLBACK()` (R110). -/
def ccwCallback (s : State) : State :=
  if s.cfg.ccwWired && aboveLimit s then setCounter (s.counter - 1) s else s

/-- The two threshold tests, the clockwise one first (R105, R106). -/
def applyThresholds (s : State) : State :=
  if 3 < s.acc.toInt then { cwCallback (emit .evCw s) with acc := 0 }
  else if s.acc.toInt < -3 then { ccwCallback (emit .evCcw s) with acc := 0 }
  else s

/-- The detent reset, after the thresholds (R107). -/
def detentReset (s : State) : State :=
  if restNow s.cfg.detentRule s.hist then { s with acc := 0 } else s

/-- One decoder invocation (R111). -/
def sampleEffect (raw : U2) (s : State) : State :=
  detentReset (applyThresholds (accumulate (shiftHistory (normalise raw) s)))

/-- SAMPLE (R111). -/
def execSample (raw : U2) (s : State) : Result := completes s (sampleEffect raw s)

end Sys2Proof.Machine
end

