-- ==== Sys2Proof/Machine/Scheduler.lean ====
section
/-! DEFINITION. The Pulse Scheduler: STEP and its five sub-steps (spec/42_scheduler.md R161 to R169). -/

namespace Sys2Proof.Machine

/-- `sched <- S` (R13). -/
def setSched (c : SchedState) (s : State) : State := { s with sched := c }

/-- The ARM that INSPECT issues on a channel, with the configured durations, and the wait state after it (R162, R88). -/
def issuePulse (ch : Channel) (wait : SchedState) (s : State) : State :=
  armThen ch (requestedActive s.cfg ch) (requestedInactive s.cfg ch) (setSched wait) s

/-- `SCHED_INSPECT`: the counter's sign alone chooses the channel; zero idles (R162, R163, R169). -/
def schedInspect (s : State) : State :=
  if 0 < s.counter.toInt then issuePulse .a .waitA s
  else if s.counter.toInt < 0 then issuePulse .b .waitB s
  else s

/-- `SCHED_WAIT(ch, next)` (R164, R166). -/
def schedWait (ch : Channel) (next : SchedState) (s : State) : State :=
  if (chanOf s ch).finished then setSched next s else s

/-- `SCHED_COMMIT_A` (R165). -/
def schedCommitA (s : State) : State :=
  setSched .inspect (if 0 < s.counter.toInt then setCounter (s.counter - 1) s else s)

/-- `SCHED_COMMIT_B` (R168). -/
def schedCommitB (s : State) : State :=
  setSched .inspect (if s.counter.toInt < 0 then setCounter (s.counter + 1) s else s)

/-- One atomic step of the scheduler (R161). -/
def schedEffect (s : State) : State :=
  match s.sched with
  | .inspect => schedInspect s
  | .waitA => schedWait .a .commitA s
  | .commitA => schedCommitA s
  | .waitB => schedWait .b .commitB s
  | .commitB => schedCommitB s

/-- STEP (R161). -/
def execStep (s : State) : Result := completes s (schedEffect s)

end Sys2Proof.Machine
end

