-- ==== Sys2Proof/Machine/Dispatch.lean ====
section
/-! DEFINITION. The meaning of each operation: one arm per constructor of Instr. -/

namespace Sys2Proof.Machine

def exec (i : Instr) (s : State) : Host.Outcome State Fault Refusal :=
  match i with
  | .sample raw => Sys2Proof.Machine.execSample raw s
  | .tick => Sys2Proof.Machine.execTick s
  | .arm ch act inact => Sys2Proof.Machine.execArm ch act inact s
  | .poll ch => Sys2Proof.Machine.execPoll ch s
  | .step => Sys2Proof.Machine.execStep s

end Sys2Proof.Machine
end

