-- ==== Sys2Proof/Machine/Step.lean ====
section
/-! DEFINITION. One step of the machine: the next operation word of the environment's stream is taken and run
(spec/00_scope.md R7, spec/20_memory.md R53, R56). -/

namespace Sys2Proof.Machine

/-- Takes the next word from `input` and runs it as one atomic step. -/
def step (s : State) : Host.Outcome State Fault Refusal :=
  match decodeBytes s.input with
  | .endOfStream => .refused .endOfStream
  | .partialWord => .refused .partialWord
  | .illegal _ rest => execIllegal { s with input := rest }
  | .operation i rest => exec i { s with input := rest }

/-- `s` with the word `w` (bits above `nbits` 0) delivered as its next operation (log entry 1). -/
def State.withFetchWord (s : State) (nbits w : Nat) : State :=
  { s with input := wordBytes (BitVec.ofNat 64 (w % 2 ^ nbits)) ++ s.input }

end Sys2Proof.Machine
end

