-- ==== Sys2Proof/Machine/Assembler.lean ====
section
/-! DEFINITION. The assembler syntax of operation words and the pseudo-instructions (spec/30_encoding.md R85, R86). A line is
a list of characters; its tokens are separated by blanks, and a comma is a token of its own (log entry 15). -/

namespace Sys2Proof.Machine

/-- What one assembler line stands for: operations to deliver in order, or the host's `wait` loop, which is no fixed
expansion (R86). -/
inductive AssemblyItem where
  | operations (l : List Instr)
  | waitFor (ch : Channel)
  deriving DecidableEq, Repr

/-- `;` begins a comment (R85). -/
def stripComment (line : List Char) : List Char := line.takeWhile (fun c => c != ';')

/-- A finished word is put in front of the tokens after it. -/
def pushWord (word : List Char) (tokens : List (List Char)) : List (List Char) :=
  if word.isEmpty then tokens else word :: tokens

/-- The tokens of a line, with the letters of the word being read in `word`. -/
def tokensFrom (word : List Char) : List Char → List (List Char)
  | [] => pushWord word []
  | c :: cs =>
    if c = ' ' ∨ c = '\t' then pushWord word (tokensFrom [] cs)
    else if c = ',' then pushWord word ([','] :: tokensFrom [] cs)
    else tokensFrom (word ++ [c]) cs

/-- The value of a digit. -/
def digitValue (c : Char) : Option Nat :=
  if '0' ≤ c ∧ c ≤ '9' then some (c.toNat - '0'.toNat)
  else if 'a' ≤ c ∧ c ≤ 'f' then some (c.toNat - 'a'.toNat + 10)
  else if 'A' ≤ c ∧ c ≤ 'F' then some (c.toNat - 'A'.toNat + 10)
  else none

/-- The digits of a number in a base, most significant first, onto the value `acc` of the digits before them. -/
def digitsFrom (base acc : Nat) : List Char → Option Nat
  | [] => some acc
  | c :: cs =>
    match digitValue c with
    | some d => if d < base then digitsFrom base (acc * base + d) cs else none
    | none => none

/-- A number with at least one digit. -/
def numberIn (base : Nat) (digits : List Char) : Option Nat :=
  if digits.isEmpty then none else digitsFrom base 0 digits

/-- "Numbers are decimal, `0x` hexadecimal or `0b` binary" (R85). -/
def parseNumber (token : List Char) : Option Nat :=
  match token with
  | '0' :: 'x' :: digits => numberIn 16 digits
  | '0' :: 'b' :: digits => numberIn 2 digits
  | digits => numberIn 10 digits

/-- A number below a bound, as an operand of fixed width has to be. -/
def parseBelow (bound : Nat) (token : List Char) : Option Nat :=
  match parseNumber token with
  | some n => if n < bound then some n else none
  | none => none

/-- `A` or `B` (R85). -/
def parseChannel (token : List Char) : Option Channel :=
  if token = ['A'] then some .a else if token = ['B'] then some .b else none

/-- `click cw`: logical 10, 11, 01, 00 (R86). -/
def clickCw : List Instr := [.sample 0b01, .sample 0b00, .sample 0b10, .sample 0b11]
/-- `click ccw`: logical 01, 11, 10, 00 (R86). -/
def clickCcw : List Instr := [.sample 0b10, .sample 0b00, .sample 0b01, .sample 0b11]
/-- `ticks n` (R86). -/
def ticksOps (n : Nat) : List Instr := List.replicate n .tick
/-- `steps n` (R86). -/
def stepsOps (n : Nat) : List Instr := List.replicate n .step

/-- `sample raw` from its operand. -/
def assembleSample (raw : List Char) : Option AssemblyItem :=
  (parseBelow 4 raw).map fun n => .operations [.sample (BitVec.ofNat 2 n)]

/-- `arm ch, act, inact` from its operands. -/
def assembleArm (ch act inact : List Char) : Option AssemblyItem :=
  match parseChannel ch, parseBelow 65536 act, parseBelow 65536 inact with
  | some c, some x, some y => some (.operations [.arm c (BitVec.ofNat 16 x) (BitVec.ofNat 16 y)])
  | _, _, _ => none

/-- A statement with no operand. -/
def assemblePlain (name : List Char) : Option AssemblyItem :=
  if name = ['t', 'i', 'c', 'k'] then some (.operations [.tick])
  else if name = ['s', 't', 'e', 'p'] then some (.operations [.step])
  else none

/-- A statement with one operand. -/
def assembleUnary (name operand : List Char) : Option AssemblyItem :=
  if name = ['s', 'a', 'm', 'p', 'l', 'e'] then assembleSample operand
  else if name = ['p', 'o', 'l', 'l'] then (parseChannel operand).map fun ch => .operations [.poll ch]
  else if name = ['w', 'a', 'i', 't'] then (parseChannel operand).map fun ch => .waitFor ch
  else if name = ['t', 'i', 'c', 'k', 's'] then (parseNumber operand).map fun n => .operations (ticksOps n)
  else if name = ['s', 't', 'e', 'p', 's'] then (parseNumber operand).map fun n => .operations (stepsOps n)
  else if name = ['c', 'l', 'i', 'c', 'k'] then
    if operand = ['c', 'w'] then some (.operations clickCw)
    else if operand = ['c', 'c', 'w'] then some (.operations clickCcw)
    else none
  else none

/-- One line of assembly: R85's operations and R86's pseudo-instructions; a line with no token stands for no operation,
and any other line is refused. -/
def assembleLine (line : List Char) : Option AssemblyItem :=
  match tokensFrom [] (stripComment line) with
  | [] => some (.operations [])
  | [name] => assemblePlain name
  | [name, operand] => assembleUnary name operand
  | [name, ch, comma, act, comma', inact] =>
    if name = ['a', 'r', 'm'] ∧ comma = [','] ∧ comma' = [','] then assembleArm ch act inact else none
  | _ => none

/-- The words a line's operations are delivered as; `none` for a refused line and for `wait` (R86). -/
def assembleWords (line : List Char) : Option (List OpWord) :=
  match assembleLine line with
  | some (.operations l) => some (l.map encode)
  | _ => none

end Sys2Proof.Machine
end

