-- ==== Sys2Proof/Machine/HostLoop.lean ====
section
/-! DEFINITION. What the host does with operations: a run of operations in order (spec/20_memory.md R57), and the `wait` loop
over POLL and TICK (spec/30_encoding.md R86, spec/41_channel_engine.md R141). -/

namespace Sys2Proof.Machine

/-- Runs operations in order, stopping at the first that does not complete (R57). -/
def runOps (ops : List Instr) (s : State) : Result :=
  match ops with
  | [] => .next s
  | i :: rest =>
    match exec i s with
    | .next t => runOps rest t
    | .fault r => .fault r
    | .refused r => .refused r

/-- `wait ch`: POLL, and while the value read is 0, TICK and POLL again; cut off after `rounds` ticks, since the loop may
never end (R86, R141; log entry 16). -/
def hostWait (ch : Channel) (rounds : Nat) (s : State) : Result :=
  match rounds with
  | 0 => exec (.poll ch) s
  | n + 1 =>
    match exec (.poll ch) s with
    | .next t =>
      if (chanOf t ch).finished then .next t
      else
        match exec .tick t with
        | .next u => hostWait ch n u
        | .fault r => .fault r
        | .refused r => .refused r
    | .fault r => .fault r
    | .refused r => .refused r

end Sys2Proof.Machine
end

