-- ==== Sys2Proof/Safety.lean ====
section
/-! DEFINITION. The terms claims are stated in: the invariant of every step (spec/10_state.md R43 with what R131, R132, R137 and
R146 add), the scheduler's exclusivity (R43 item 9, spec/42_scheduler.md R171), and what a tick that matches leaves before its
handler (spec/41_channel_engine.md R122, R125, R144). -/

namespace Sys2Proof.Machine

/-- What holds of one channel between steps. -/
structure ChannelInv (s : State) (ch : Channel) : Prop where
  /-- R43 item 2. -/
  owned : inFlight s ch = true → s.running = true ∧ s.owner = ownerOf ch
  /-- R43 item 5. -/
  pinActive : inFlight s ch = true →
    (chanOf s ch).phase = .activeStart ∨ (chanOf s ch).phase = .inactiveStart → pinOf s ch = .active
  /-- R43 item 6. -/
  pinInactive : inFlight s ch = true →
    (chanOf s ch).phase = .inactiveContinue ∨ (chanOf s ch).phase = .inactiveFinish → pinOf s ch = .inactive
  /-- R43 item 7: with the compare value 0, an ActiveStart match is at position 0. -/
  chaining : inFlight s ch = true → (chanOf s ch).phase = .activeStart →
    (cmpOf s ch).ocr = 0 ∧ (cmpOf s ch).com = .hold
  /-- R43 item 8. -/
  finishedIdle : (chanOf s ch).finished = true → inFlight s ch = false
  /-- R131: the compare that ends the active duration stands at `aLo` and drives the pin inactive. -/
  ending : inFlight s ch = true → (chanOf s ch).phase = .inactiveStart →
    (cmpOf s ch).ocr = (chanOf s ch).aLo ∧ (cmpOf s ch).com = .driveInactive
  /-- R137. -/
  continuing : inFlight s ch = true → (chanOf s ch).phase = .inactiveContinue → (cmpOf s ch).ocr = 0
  /-- R132: something of the active duration is left. -/
  activeLeft : inFlight s ch = true → (chanOf s ch).phase = .activeStart →
    1 ≤ 256 * (chanOf s ch).aHi.toNat + (chanOf s ch).aLo.toNat
  /-- R135, R136: something of the inactive duration is left. -/
  inactiveLeft : inFlight s ch = true → (chanOf s ch).phase ≠ .inactiveFinish → 1 ≤ (chanOf s ch).inact.toNat
  /-- R146. -/
  idlePin : inFlight s ch = false → pinOf s ch = .inactive

/-- What holds between steps (R43, items 1 to 8). Item 9 is `SchedExclusive` (log entry 10). -/
structure BlockInv (s : State) : Prop where
  /-- The parameters passed the launch's check (R186). -/
  parameters : s.cfg.wellFormed = true
  /-- R43 item 1. -/
  exclusive : ¬ (inFlight s .a = true ∧ inFlight s .b = true)
  /-- The timer runs only under a pulse (R127, R138). -/
  timerUsed : s.running = true → inFlight s .a = true ∨ inFlight s .b = true
  /-- R43 item 3. -/
  accBound : -3 ≤ s.acc.toInt ∧ s.acc.toInt ≤ 3
  /-- R43 item 4. -/
  counterBound : -(s.cfg.counterLimit : Int) ≤ s.counter.toInt ∧ s.counter.toInt ≤ (s.cfg.counterLimit : Int)
  /-- R182: codes 5 to 255 are unused. -/
  faultCode : s.fault.toNat ≤ 4
  chanA : ChannelInv s .a
  chanB : ChannelInv s .b

/-- R43 item 9, with what R171 adds at INSPECT and COMMIT: no channel is in flight there, and while the scheduler waits for
one channel the other is not in flight. It holds in runs with no host ARM (log entry 10). -/
def SchedExclusive (s : State) : Prop :=
  match s.sched with
  | .inspect => inFlight s .a = false ∧ inFlight s .b = false
  | .waitA => inFlight s .b = false
  | .commitA => inFlight s .a = false ∧ inFlight s .b = false
  | .waitB => inFlight s .a = false
  | .commitB => inFlight s .a = false ∧ inFlight s .b = false

/-- On the next TICK unit `ch` does nothing: it is away from its compare value, or it matches with its interrupt disabled
and its action changes no pin (R122, R125, R146). -/
def QuietUnit (s : State) (ch : Channel) : Prop :=
  (cmpOf s ch).ocr ≠ s.tcnt + 1 ∨
  (inFlight s ch = false ∧ (cmpOf s ch).skip = false ∧ ((cmpOf s ch).com = .hold ∨ pinOf s ch = .inactive))

/-- On the next TICK unit `ch` matches with its interrupt enabled, and the other unit does nothing (R122, R124). -/
structure SoleMatch (s : State) (ch : Channel) : Prop where
  unfaulted : s.fault = 0
  running : s.running = true
  enabled : inFlight s ch = true
  reached : (cmpOf s ch).ocr = s.tcnt + 1
  notSkipped : (cmpOf s ch).skip = false
  otherQuiet : QuietUnit s (otherChannel ch)

/-- The records and the pin level of a matching unit before its handler: the output action, then the MATCH record (R125,
R84). -/
def matchedState (s : State) (ch : Channel) : State :=
  { s with
    tcnt := s.tcnt + 1
    pin := if (cmpOf s ch).com = .driveInactive then put s.pin ch .inactive else s.pin
    trace := s.trace
      ++ (if (cmpOf s ch).com = .driveInactive ∧ pinOf s ch = .active then [.pin ch .inactive] else [])
      ++ [.compareMatch (chanOf s ch).phase ch (s.tcnt + 1)] }

/-- `m` with channel `ch`'s fields `c`, and its unit's finishing compare programmed at `v` with the action `com`: where the
distance is below `MIN_LEAD` the draw decides whether that match is missed (R144). -/
def programmed (m : State) (ch : Channel) (c : ChannelState) (v : U8) (com : OutputAction) : State :=
  { m with
    chan := put m.chan ch c
    cmp := put m.cmp ch ⟨v, com, (cmpOf m ch).ie,
      if compareDistance m.tcnt v < m.cfg.minLead then Config.missedDraw m.draws else (cmpOf m ch).skip⟩
    draws := if compareDistance m.tcnt v < m.cfg.minLead then m.draws + 1 else m.draws }

/-- `m` with channel `ch`'s fields `c`, and its unit's compare programmed for the wrap (R132, R135). -/
def programmedForWrap (m : State) (ch : Channel) (c : ChannelState) : State :=
  { m with chan := put m.chan ch c, cmp := put m.cmp ch { cmpOf m ch with ocr := 0 } }

/-- The records `rs` are what a step from `s` to `t` appended to the trace (R15). -/
def Appends (s t : State) (rs : List TraceRecord) : Prop := t.trace = s.trace ++ rs

/-- EV_CW or EV_CCW (R81). -/
def isEvent (r : TraceRecord) : Bool :=
  match r with
  | .evCw => true
  | .evCcw => true
  | _ => false

/-- A COUNTER record (R82). -/
def isCounter (r : TraceRecord) : Bool :=
  match r with
  | .counter _ => true
  | _ => false

/-- A PIN record of channel `ch` (R83). -/
def isPinOf (ch : Channel) (r : TraceRecord) : Bool :=
  match r with
  | .pin c _ => c == ch
  | _ => false

/-- A MATCH record of channel `ch` in phase `p` (R84). -/
def isMatchOf (p : Phase) (ch : Channel) (r : TraceRecord) : Bool :=
  match r with
  | .compareMatch q c _ => q == p && c == ch
  | _ => false

/-- An ARMED record of channel `ch` (R80). -/
def isArmedOf (ch : Channel) (r : TraceRecord) : Bool :=
  match r with
  | .armed c _ _ => c == ch
  | _ => false

end Sys2Proof.Machine
end

