-- ==== Sys2Proof/Certificates/Slice0/Obligations.lean ====
section
/-! DEFINITION. The statements for the provers, from the numbered rules of spec/. -/

open Sys2Proof Sys2Proof.Machine

/-! ### Encoding -/

/-- Decoding the encoding of a well-formed operation gives it back, as a word (R70 to R76) and from the serialised stream
(R52). -/
def Obligations.DecodeOfEncodeIsOperation : Prop :=
  ∀ i : Instr, i.wellFormed = true →
    decodeWord (encode i) = .operation i ∧
    ∀ rest : List Byte, decodeBytes (wordBytes (encode i) ++ rest) = .operation i rest

/-- R78: the decoder is total, a word is exactly one operation (the one whose encoding it is) or illegal, and no two rows of
the table overlap. -/
def Obligations.EveryWordIsOneOperationOrIllegal : Prop :=
  (∀ w : OpWord,
    (∃ i, decodeWord w = .operation i ∧ encode i = w ∧ ∀ j, encode j = w → j = i) ∨
    (∃ why, decodeWord w = .illegal why ∧ ∀ j, encode j ≠ w)) ∧
  opcodeRows.Pairwise (fun r r' => ∀ w, ¬ (r.fits w = true ∧ r'.fits w = true))

/-- R77: which words are illegal, by which of its two conditions, the words it lists, and what an illegal
word does to an unfaulted block (R181, R182; a faulted one refuses it: log entry 9). The model's own in the last clause: the
stream is the field `input` (log entry 1), and the illegal word is taken from it (log entry 2). -/
def Obligations.IllegalWordsRaiseIllegalOp : Prop :=
  (∀ w : OpWord, decodeWord w = .illegal .unknownOpcode ↔
    ¬ (1 ≤ (w.extractLsb' 56 8).toNat ∧ (w.extractLsb' 56 8).toNat ≤ 5)) ∧
  (∀ w : OpWord, decodeWord w = .illegal .fixedBitWrong ↔
    (w.extractLsb' 56 8 = 0x01 ∧ w &&& 0xFFFFFFFFFFFFFFFC#64 ≠ 0x0100000000000000#64) ∨
    (w.extractLsb' 56 8 = 0x02 ∧ w &&& 0xFFFFFFFFFFFFFFFF#64 ≠ 0x0200000000000000#64) ∨
    (w.extractLsb' 56 8 = 0x03 ∧ w &&& 0xFFFEFFFF00000000#64 ≠ 0x0300000000000000#64) ∨
    (w.extractLsb' 56 8 = 0x04 ∧ w &&& 0xFFFEFFFFFFFFFFFF#64 ≠ 0x0400000000000000#64) ∨
    (w.extractLsb' 56 8 = 0x05 ∧ w &&& 0xFFFFFFFFFFFFFFFF#64 ≠ 0x0500000000000000#64)) ∧
  (∀ r : TraceRecord, decodeWord r.encode = .illegal .unknownOpcode) ∧
  (∀ (s : State) (w : OpWord) (why : IllegalWord) (rest : List Byte),
    s.fault = 0 → s.input = wordBytes w ++ rest → decodeWord w = .illegal why →
    step s = .next { s with input := rest, fault := 1, trace := s.trace ++ [.fault 1 .a] })

/-- R89's worked encodings, both ways. -/
def Obligations.WorkedWordsDecodeAndEncode : Prop :=
  ∀ p ∈ [(Instr.sample 0b01, 0x0100000000000001#64), (.tick, 0x0200000000000000#64),
      (.arm .a 300 100, 0x03000000012C0064#64), (.arm .b 300 100, 0x03010000012C0064#64),
      (.poll .b, 0x0401000000000000#64), (.step, 0x0500000000000000#64)],
    encode p.1 = p.2 ∧ decodeWord p.2 = .operation p.1

/-- The words of the trace records, one by one: each record's op and fields as R80's table has them, at R70's places, with the
phase codes of R33 and the levels of R38; every op is in 0x80 to 0xFF, and each record is read back from its word. -/
def Obligations.TraceRecordsReadBack : Prop :=
  ∀ r : TraceRecord,
    let chByte : Channel → BitVec 8 := fun ch =>
      match ch with
      | .a => 0
      | .b => 1
    r.encode =
      (match r with
      | .evCw => 0x8000000000000000#64
      | .evCcw => 0x8100000000000000#64
      | .counter v => 0x82#8 ++ 0#48 ++ v
      | .pin ch .inactive => 0x83#8 ++ chByte ch ++ 0#48
      | .pin ch .active => 0x83#8 ++ chByte ch ++ 1#48
      | .finished ch => 0x84#8 ++ chByte ch ++ 0#48
      | .pollRes ch false => 0x85#8 ++ chByte ch ++ 0#48
      | .pollRes ch true => 0x85#8 ++ chByte ch ++ 1#48
      | .fault code ch => 0x86#8 ++ chByte ch ++ 0#40 ++ code
      | .armed ch act inact => 0x87#8 ++ chByte ch ++ 0#16 ++ act ++ inact
      | .compareMatch .activeStart ch q => 0x90#8 ++ chByte ch ++ 0#40 ++ q
      | .compareMatch .inactiveStart ch q => 0x91#8 ++ chByte ch ++ 0#40 ++ q
      | .compareMatch .inactiveContinue ch q => 0x92#8 ++ chByte ch ++ 0#40 ++ q
      | .compareMatch .inactiveFinish ch q => 0x93#8 ++ chByte ch ++ 0#40 ++ q) ∧
    TraceRecord.decode r.encode = some r ∧ 0x80 ≤ (r.encode.extractLsb' 56 8).toNat

/-- The words of R86's two click sequences (the table of spec/95_test_vectors.md, group V-X). -/
def Obligations.ClickExpansionsAreTheirWords : Prop :=
  clickCw.map encode =
    [0x0100000000000001#64, 0x0100000000000000#64, 0x0100000000000002#64, 0x0100000000000003#64] ∧
  clickCcw.map encode =
    [0x0100000000000002#64, 0x0100000000000000#64, 0x0100000000000001#64, 0x0100000000000003#64] ∧
  ∀ n : Nat, ticksOps n = List.replicate n .tick ∧ stepsOps n = List.replicate n .step

/-- R52: the bytes of a word are little-endian, and a duration is its (high byte, low byte) pair. -/
def Obligations.WordsAreLittleEndian : Prop :=
  (∀ (w : OpWord) (k : Nat), k < 8 → (wordBytes w)[k]? = some (w.extractLsb' (8 * k) 8)) ∧
  (∀ w : OpWord, (wordBytes w).length = 8) ∧
  (∀ b0 b1 b2 b3 b4 b5 b6 b7 : Byte,
    wordBytes (wordOfBytes b0 b1 b2 b3 b4 b5 b6 b7) = [b0, b1, b2, b3, b4, b5, b6, b7]) ∧
  (∀ d : U16, hi d = d.extractLsb' 8 8 ∧ lo d = d.extractLsb' 0 8 ∧ 256 * (hi d).toNat + (lo d).toNat = d.toNat)

/-! ### The stream -/

/-- When the bytes of the stream decode to a well-formed operation, the step is that operation, with its eight bytes taken
from the stream (R7, R56). The stream as bytes in the state is the model's choice (log entry 1). -/
def Obligations.StepRunsTheDecodedOperation : Prop :=
  ∀ (s : State) (i : Instr) (rest : List Byte),
    decodeBytes s.input = .operation i rest → i.wellFormed = true →
    step s = exec i { s with input := rest } ∧ s.input.length = rest.length + 8

/-- R53: a partial word is refused at the boundary, with no step. -/
def Obligations.PartialWordIsRefused : Prop :=
  ∀ s : State, 0 < s.input.length → s.input.length < 8 → step s = .refused .partialWord

/-! ### Reset and launch -/

/-- R210: the state right after a launch, field by field. -/
def Obligations.ResetStateIsTheSpecs : Prop :=
  ∀ (c : Config) (s : State), launch c = .next s →
    s.hist = 0b0000 ∧ s.acc = 0 ∧ s.counter = 0 ∧ s.tcnt = 0 ∧ s.running = false ∧ s.owner = .none ∧
    (∀ ch, (cmpOf s ch).ocr = 0 ∧ (cmpOf s ch).com = .hold ∧ (cmpOf s ch).ie = false ∧ (cmpOf s ch).skip = false) ∧
    (∀ ch, (chanOf s ch).phase = .activeStart ∧ (chanOf s ch).aHi = 0 ∧ (chanOf s ch).aLo = 0 ∧
      (chanOf s ch).inact = 0 ∧ (chanOf s ch).finished = false) ∧
    (∀ ch, pinOf s ch = .inactive) ∧ s.sched = .inspect ∧ s.fault = 0 ∧ s.trace = []

/-- R186 (with R9's constraints): exactly the configurations that break a constraint are refused before the launch, and a
scheduler with legal durations never raises ZERO_DURATION. The bounds on R10's separate pairs, in both clauses, are the
model's (log entry 7). -/
def Obligations.BrokenConfigurationIsRefused : Prop :=
  (∀ c : Config,
    (launch c = .refused .badConfiguration ↔
      ¬ (1 ≤ c.counterLimit ∧ c.counterLimit ≤ 127 ∧ 1 ≤ c.activeTicks ∧ c.activeTicks ≤ 65535 ∧
        1 ≤ c.inactiveTicks ∧ c.inactiveTicks ≤ 65535 ∧ 1 ≤ c.prescale ∧ 1 ≤ c.minLead ∧
        ∀ da db, c.perChannel = some (da, db) →
          1 ≤ da.active ∧ da.active ≤ 65535 ∧ 1 ≤ da.inactive ∧ da.inactive ≤ 65535 ∧
          1 ≤ db.active ∧ db.active ≤ 65535 ∧ 1 ≤ db.inactive ∧ db.inactive ≤ 65535))) ∧
  (∀ s t : State, s.cfg.wellFormed = true → exec .step s = .next t → t.fault ≠ 2)

/-- R213: no operation changes the parameters, and the launch takes them as they are given. -/
def Obligations.NoOperationChangesTheParameters : Prop :=
  (∀ s t : State, step s = .next t → t.cfg = s.cfg) ∧
  (∀ (c : Config) (s : State), launch c = .next s → s.cfg = c)

/-! ### Faults -/

/-- R181 and R14: a step that faults records its code and one FAULT record and has no other effect; a faulted block refuses
every operation, so that the fault is never cleared. The model's own: the faulting word is taken from `input` (log entry
2), and in a faulted block an illegal word is refused too (log entry 9). -/
def Obligations.FaultsDiscardTheStepAndStopTheBlock : Prop :=
  (∀ s t : State, step s = .next t → s.fault = 0 ∧
    (t.fault ≠ 0 → ∃ ch, t = { s with input := t.input, fault := t.fault, trace := s.trace ++ [.fault t.fault ch] })) ∧
  (∀ (i : Instr) (s : State), s.fault ≠ 0 → exec i s = .refused .faulted) ∧
  (∀ s : State, s.fault ≠ 0 → ∃ why, step s = .refused why)

/-- Every operation completes in every unfaulted state (R122, R111, R127, R140, R161: a fault an ARM raises is itself a next
state). -/
def Obligations.EveryOperationCompletesUnfaulted : Prop :=
  ∀ (i : Instr) (s : State), s.fault = 0 → ∃ t, exec i s = .next t

/-- R188: of the operations only ARM, and STEP at INSPECT through its ARM, can fault. -/
def Obligations.OnlyArmsFault : Prop :=
  ∀ (i : Instr) (s t : State), exec i s = .next t → t.fault ≠ 0 →
    (∃ ch act inact, i = .arm ch act inact) ∨ (i = .step ∧ s.sched = .inspect ∧ s.counter ≠ 0)

/-- R184, R185, R128, in R192's order: the faults of ARM, each with its code and the armed channel. -/
def Obligations.ArmFaultsInOrder : Prop :=
  ∀ (ch : Channel) (act inact : U16) (s : State), s.fault = 0 →
    (inFlight s ch = true →
      exec (.arm ch act inact) s = .next { s with fault := 3, trace := s.trace ++ [.fault 3 ch] }) ∧
    (inFlight s ch = false → inFlight s (otherChannel ch) = true →
      exec (.arm ch act inact) s = .next { s with fault := 4, trace := s.trace ++ [.fault 4 ch] }) ∧
    (inFlight s ch = false → inFlight s (otherChannel ch) = false → act = 0 ∨ inact = 0 →
      exec (.arm ch act inact) s = .next { s with fault := 2, trace := s.trace ++ [.fault 2 ch] })

/-! ### ARM -/

/-- R127 with its first ActiveStart decision (R130 to R132, R144): everything an ARM that raises no fault does, and with it
what it leaves unchanged. The draw is a free value (log entry 8). -/
def Obligations.ArmStartsThePulse : Prop :=
  ∀ (ch : Channel) (act inact : U16) (s : State),
    s.fault = 0 → inFlight s ch = false → inFlight s (otherChannel ch) = false → act ≠ 0 → inact ≠ 0 →
    let fit := decide (act.toNat ≤ 256)
    let drawn := fit && decide (compareDistance 0 (lo act) < s.cfg.minLead)
    exec (.arm ch act inact) s = .next
      { s with
        trace := s.trace ++ [.armed ch act inact]
          ++ (if pinOf s ch = .inactive then [.pin ch .active] else [])
        chan := put s.chan ch
          ⟨if fit then .inactiveStart else .activeStart, if fit then hi act else hi act - 1, lo act, inact, false⟩
        cmp := put s.cmp ch
          ⟨if fit then lo act else 0, if fit then .driveInactive else .hold, true,
            if drawn then Config.missedDraw s.draws else false⟩
        pin := put s.pin ch .active
        tcnt := 0
        running := true
        owner := ownerOf ch
        draws := if drawn then s.draws + 1 else s.draws }

/-! ### SAMPLE -/

/-- R104: the sixteen entries of the transition table. -/
def Obligations.TransitionTableEntries : Prop :=
  (List.range 16).map (fun h => (delta (BitVec.ofNat 4 h)).toInt) =
    [0, -1, 1, 0, 1, 0, 0, -1, -1, 0, 0, 1, 0, 1, -1, 0]

/-- R111: the whole effect of a SAMPLE (R102 to R107, and the callbacks of R109 and R110), and with it everything it leaves
unchanged. -/
def Obligations.SampleRunsTheDecoder : Prop :=
  ∀ (raw : U2) (s : State), s.fault = 0 →
    let h : U4 := s.hist.extractLsb' 0 2 ++ (raw ^^^ 0b11#2)
    let sum : I8 := s.acc + delta h
    let cw := decide (3 < sum.toInt)
    let ccw := decide (sum.toInt < -3)
    let up := cw && s.cfg.cwWired && decide (s.counter.toInt < (s.cfg.counterLimit : Int))
    let down := ccw && s.cfg.ccwWired && decide (-(s.cfg.counterLimit : Int) < s.counter.toInt)
    let rest := match s.cfg.detentRule with
      | .fullHistory => decide (h = 0b0000)
      | .sampleRest => decide (h.extractLsb' 0 2 = 0b00)
    let counter' : I8 := if up then s.counter + 1 else if down then s.counter - 1 else s.counter
    exec (.sample raw) s = .next
      { s with
        hist := h
        acc := if cw || ccw || rest then 0 else sum
        counter := counter'
        trace := s.trace
          ++ (if cw then [.evCw] else if ccw then [.evCcw] else [])
          ++ (if up || down then [.counter counter'] else []) }

/-- R109 and R110: a callback moves the counter by one, clamped at N and −N, with a COUNTER record exactly when it moves; an
unwired callback does nothing. -/
def Obligations.CallbacksAreClamped : Prop :=
  ∀ s : State,
    (s.cfg.cwWired = true → s.counter.toInt < (s.cfg.counterLimit : Int) →
      cwCallback s = { s with counter := s.counter + 1, trace := s.trace ++ [.counter (s.counter + 1)] }) ∧
    (s.cfg.cwWired = false ∨ (s.cfg.counterLimit : Int) ≤ s.counter.toInt → cwCallback s = s) ∧
    (s.cfg.ccwWired = true → -(s.cfg.counterLimit : Int) < s.counter.toInt →
      ccwCallback s = { s with counter := s.counter - 1, trace := s.trace ++ [.counter (s.counter - 1)] }) ∧
    (s.cfg.ccwWired = false ∨ s.counter.toInt ≤ -(s.cfg.counterLimit : Int) → ccwCallback s = s)

/-- R112: a SAMPLE reads no timer, channel or scheduler state, and writes none. -/
def Obligations.SampleIsAFunctionOfTheDecoderState : Prop :=
  ∀ (raw : U2) (s s' t t' : State),
    s'.cfg = s.cfg → s'.hist = s.hist → s'.acc = s.acc → s'.counter = s.counter →
    exec (.sample raw) s = .next t → exec (.sample raw) s' = .next t' →
    t'.hist = t.hist ∧ t'.acc = t.acc ∧ t'.counter = t.counter ∧
    (∃ rs, Appends s t rs ∧ Appends s' t' rs) ∧
    t = { s with hist := t.hist, acc := t.acc, counter := t.counter, trace := t.trace }

/-- R108: a SAMPLE invokes at most one of the two callbacks. -/
def Obligations.SampleFiresAtMostOneCallback : Prop :=
  ∀ (raw : U2) (s t : State), exec (.sample raw) s = .next t →
    ∃ rs, Appends s t rs ∧ rs.countP isEvent ≤ 1

/-- R114: from rest with the accumulator at 0, a click fires its own event once, at its fourth sample, and never the other;
n clicks in one direction give n events of that direction. -/
def Obligations.ClickFiresItsEventOnce : Prop :=
  ∀ s : State, s.fault = 0 → s.acc = 0 → s.hist.extractLsb' 0 2 = 0 →
    (∃ t, runOps (clickCw.take 3) s = .next t ∧ t.trace = s.trace) ∧
    (∃ t, runOps (clickCcw.take 3) s = .next t ∧ t.trace = s.trace) ∧
    (∀ n : Nat, ∃ t rs, runOps (List.replicate n clickCw).flatten s = .next t ∧ Appends s t rs ∧
      rs.count .evCw = n ∧ rs.count .evCcw = 0 ∧ t.acc = 0 ∧ t.hist.extractLsb' 0 2 = 0) ∧
    (∀ n : Nat, ∃ t rs, runOps (List.replicate n clickCcw).flatten s = .next t ∧ Appends s t rs ∧
      rs.count .evCcw = n ∧ rs.count .evCw = 0 ∧ t.acc = 0 ∧ t.hist.extractLsb' 0 2 = 0)

/-- R113. The table gives a single-line change and its return opposite deltas, and a change of both lines the delta 0. So a
single-line glitch that returns, from an accumulator within ±2, fires no callback, and under FULL_HISTORY it leaves the
accumulator as it was; a sample in which both lines change fires none from any accumulator within ±3 (R43 item 3) and adds
nothing. The exception: from 3 (−3) a glitch to the next CW (CCW) state fires EV_CW (EV_CCW), and under FULL_HISTORY its
return leaves −1 (1). -/
def Obligations.GlitchesFireNothing : Prop :=
  (∀ x y : U2, x ^^^ y = 0b01#2 ∨ x ^^^ y = 0b10#2 → delta (x ++ y) + delta (y ++ x) = 0) ∧
  (∀ x y : U2, x ^^^ y = 0b11#2 → delta (x ++ y) = 0) ∧
  ∀ (s : State) (x y : U2), s.fault = 0 → s.hist.extractLsb' 0 2 = x ^^^ 0b11#2 →
    (x ^^^ y = 0b01#2 ∨ x ^^^ y = 0b10#2 → -2 ≤ s.acc.toInt → s.acc.toInt ≤ 2 →
      ∃ t, runOps [.sample y, .sample x] s = .next t ∧ t.trace = s.trace ∧ t.counter = s.counter ∧
        (s.cfg.detentRule = .fullHistory → t.acc = s.acc)) ∧
    (x ^^^ y = 0b11#2 → -3 ≤ s.acc.toInt → s.acc.toInt ≤ 3 →
      ∃ t, exec (.sample y) s = .next t ∧ t.trace = s.trace ∧ t.counter = s.counter ∧
        (s.cfg.detentRule = .fullHistory → t.acc = s.acc)) ∧
    (s.acc.toInt = 3 → delta ((x ^^^ 0b11#2) ++ (y ^^^ 0b11#2)) = 1 →
      ∃ t rs, runOps [.sample y, .sample x] s = .next t ∧ Appends s t rs ∧ rs.filter isEvent = [.evCw] ∧
        (s.cfg.detentRule = .fullHistory → t.acc.toInt = -1)) ∧
    (s.acc.toInt = -3 → delta ((x ^^^ 0b11#2) ++ (y ^^^ 0b11#2)) = -1 →
      ∃ t rs, runOps [.sample y, .sample x] s = .next t ∧ Appends s t rs ∧ rs.filter isEvent = [.evCcw] ∧
        (s.cfg.detentRule = .fullHistory → t.acc.toInt = 1))

/-! ### The counter and the trace, over all operations -/

/-- R25: with legal parameters the counter stays within ±N and one operation moves it by at most one. -/
def Obligations.CounterMovesByOneWithinItsBounds : Prop :=
  ∀ (i : Instr) (s t : State), s.cfg.wellFormed = true →
    -(s.cfg.counterLimit : Int) ≤ s.counter.toInt → s.counter.toInt ≤ (s.cfg.counterLimit : Int) →
    exec i s = .next t →
    -(s.cfg.counterLimit : Int) ≤ t.counter.toInt ∧ t.counter.toInt ≤ (s.cfg.counterLimit : Int) ∧
    -1 ≤ t.counter.toInt - s.counter.toInt ∧ t.counter.toInt - s.counter.toInt ≤ 1

/-- R82: a COUNTER record is emitted exactly when the counter changes, and it gives the new value. -/
def Obligations.CounterRecordsExactlyOnChange : Prop :=
  ∀ (i : Instr) (s t : State), exec i s = .next t →
    ∃ rs, Appends s t rs ∧ rs.filter isCounter = if t.counter = s.counter then [] else [.counter t.counter]

/-- R83: a PIN record of a channel is emitted exactly when its pin changes, and it gives the new level. -/
def Obligations.PinRecordsExactlyOnChange : Prop :=
  ∀ (i : Instr) (s t : State) (ch : Channel), exec i s = .next t →
    ∃ rs, Appends s t rs ∧
      rs.filter (isPinOf ch) = if pinOf t ch = pinOf s ch then [] else [.pin ch (pinOf t ch)]

/-! ### TICK -/

/-- R123: the timer counts one per TICK while it runs, 255 is followed by 0, and a stopped timer keeps its position. With it
the frame of every TICK (R122, R194): the decoder, the counter, the owner, the scheduler and the fault are as they were. -/
def Obligations.TimerCountsWhileItRuns : Prop :=
  ∀ s : State, s.fault = 0 →
    (s.running = true → ∃ t rs, exec .tick s = .next t ∧ t.tcnt.toNat = (s.tcnt.toNat + 1) % 256 ∧
      t = { s with
        tcnt := t.tcnt, running := t.running, cmp := t.cmp, chan := t.chan, pin := t.pin, draws := t.draws
        trace := s.trace ++ rs }) ∧
    (s.running = false → exec .tick s = .next s)

/-- A TICK on which no unit acts changes the position alone: each unit is away from its compare value, or matches with its
interrupt disabled and no pin to change (R122, R124, R146). -/
def Obligations.TickWithQuietUnitsOnlyCounts : Prop :=
  ∀ s : State, s.fault = 0 → s.running = true → QuietUnit s .a → QuietUnit s .b →
    exec .tick s = .next { s with tcnt := s.tcnt + 1 }

/-- A match that the `skip` bit marks as missed does nothing but clear the bit (R124, R44). -/
def Obligations.MissedMatchOnlyClearsSkip : Prop :=
  ∀ (s : State) (ch : Channel), s.fault = 0 → s.running = true →
    (cmpOf s ch).ocr = s.tcnt + 1 → (cmpOf s ch).skip = true → QuietUnit s (otherChannel ch) →
    exec .tick s = .next
      { s with tcnt := s.tcnt + 1, cmp := put s.cmp ch { cmpOf s ch with skip := false } }

/-- R146: an idle channel's pin is INACTIVE, and its match, under the invariant, changes nothing and emits nothing. -/
def Obligations.IdleUnitMatchChangesNothing : Prop :=
  ∀ (s : State) (ch : Channel), BlockInv s → inFlight s ch = false →
    pinOf s ch = .inactive ∧
    (s.fault = 0 → s.running = true → (cmpOf s ch).ocr = s.tcnt + 1 → (cmpOf s ch).skip = false →
      QuietUnit s (otherChannel ch) → exec .tick s = .next { s with tcnt := s.tcnt + 1 })

/-- A matching unit whose interrupt is disabled still drives its pin INACTIVE where its action says so, and runs no handler
(R122's second corner case). -/
def Obligations.DisabledUnitStillDrivesItsPin : Prop :=
  ∀ (s : State) (ch : Channel), s.fault = 0 → s.running = true → inFlight s ch = false →
    (cmpOf s ch).ocr = s.tcnt + 1 → (cmpOf s ch).skip = false → (cmpOf s ch).com = .driveInactive →
    pinOf s ch = .active → QuietUnit s (otherChannel ch) →
    exec .tick s = .next
      { s with
        tcnt := s.tcnt + 1
        pin := put s.pin ch .inactive
        trace := s.trace ++ [.pin ch .inactive] }

/-- The ActiveStart handler on a match: the fitting branch (R131) and the chaining branch (R132), chosen by R129's test. The
draw of the fitting branch is a free value (log entry 8). -/
def Obligations.ActiveStartMatch : Prop :=
  ∀ (s : State) (ch : Channel), SoleMatch s ch → (chanOf s ch).phase = .activeStart →
    exec .tick s = .next
      (if 256 * (chanOf s ch).aHi.toNat + (chanOf s ch).aLo.toNat ≤ 256 then
        programmed (matchedState s ch) ch { chanOf s ch with phase := .inactiveStart }
          (chanOf s ch).aLo .driveInactive
      else
        programmedForWrap (matchedState s ch) ch { chanOf s ch with aHi := (chanOf s ch).aHi - 1 })

/-- The InactiveStart handler on a match (R133): the fitting branch (R134) and the overflowing branch (R135). The draw of the
fitting branch is a free value (log entry 8). -/
def Obligations.InactiveStartMatch : Prop :=
  ∀ (s : State) (ch : Channel), SoleMatch s ch → (chanOf s ch).phase = .inactiveStart →
    exec .tick s = .next
      (if (chanOf s ch).inact.toNat ≤ 256 - (chanOf s ch).aLo.toNat then
        programmed (matchedState s ch) ch { chanOf s ch with phase := .inactiveFinish }
          ((chanOf s ch).aLo + lo (chanOf s ch).inact) (cmpOf s ch).com
      else
        programmedForWrap (matchedState s ch) ch
          { chanOf s ch with
            phase := .inactiveContinue
            inact := BitVec.ofNat 16 ((chanOf s ch).inact.toNat - (256 - (chanOf s ch).aLo.toNat)) })

/-- The InactiveContinue handler on a match (R136). The draw of the fitting branch is a free value (log entry 8). -/
def Obligations.InactiveContinueMatch : Prop :=
  ∀ (s : State) (ch : Channel), SoleMatch s ch → (chanOf s ch).phase = .inactiveContinue →
    exec .tick s = .next
      (if (chanOf s ch).inact.toNat ≤ 256 then
        programmed (matchedState s ch) ch { chanOf s ch with phase := .inactiveFinish }
          (lo (chanOf s ch).inact) (cmpOf s ch).com
      else
        programmedForWrap (matchedState s ch) ch
          { chanOf s ch with inact := BitVec.ofNat 16 ((chanOf s ch).inact.toNat - 256) })

/-- The InactiveFinish handler on a match (R138). -/
def Obligations.InactiveFinishMatch : Prop :=
  ∀ (s : State) (ch : Channel), SoleMatch s ch → (chanOf s ch).phase = .inactiveFinish →
    exec .tick s = .next
      { matchedState s ch with
        cmp := put s.cmp ch { cmpOf s ch with ie := false }
        running := if s.owner = ownerOf ch then false else true
        chan := put s.chan ch { chanOf s ch with finished := true }
        trace := (matchedState s ch).trace ++ [.finished ch] }

/-- R125: when both units match on one TICK, unit A's action and handler come before unit B's. -/
def Obligations.UnitAIsServicedFirst : Prop :=
  ∀ s : State, s.fault = 0 → s.running = true →
    (cmpOf s .a).ocr = s.tcnt + 1 → (cmpOf s .a).skip = false →
    (cmpOf s .b).ocr = s.tcnt + 1 → (cmpOf s .b).skip = false →
    ∃ t, exec .tick s = .next t ∧ t = serviceMatch .b (serviceMatch .a { s with tcnt := s.tcnt + 1 }) ∧
      ∃ ra rb, Appends s t (ra ++ rb) ∧
        Appends { s with tcnt := s.tcnt + 1 } (serviceMatch .a { s with tcnt := s.tcnt + 1 }) ra ∧
        (∀ r ∈ ra, isPinOf .b r = false ∧ ∀ p, isMatchOf p .b r = false) ∧
        (∀ r ∈ rb, isPinOf .a r = false ∧ ∀ p, isMatchOf p .a r = false)

/-- The compare distance (R124): it is 1 to 256, 256 where the value is the position itself, and the counter reaches the
value for the first time after exactly that many ticks. -/
def Obligations.CompareDistanceIsTheFirstMatch : Prop :=
  ∀ q v : U8,
    1 ≤ compareDistance q v ∧ compareDistance q v ≤ 256 ∧ compareDistance q q = 256 ∧
    q + BitVec.ofNat 8 (compareDistance q v) = v ∧
    ∀ k : Nat, 1 ≤ k → k < compareDistance q v → q + BitVec.ofNat 8 k ≠ v

/-- R129: the fit test is 1 ≤ R ≤ 256 of the remaining duration R. -/
def Obligations.FitsMeansOneTimerCycle : Prop :=
  ∀ h l : U8, 1 ≤ 256 * h.toNat + l.toNat →
    (fits h l = true ↔ 1 ≤ 256 * h.toNat + l.toNat ∧ 256 * h.toNat + l.toNat ≤ 256)

/-- With the default `MIN_LEAD = 1` no draw is ever made and no `skip` bit is ever set (R144). The draws
are counted in the model's own field (log entry 8). -/
def Obligations.NoDrawAtTheDefaultLead : Prop :=
  ∀ (i : Instr) (s t : State), s.cfg.minLead ≤ 1 → exec i s = .next t →
    t.draws = s.draws ∧ ∀ ch, (cmpOf s ch).skip = false → (cmpOf t ch).skip = false

/-! ### Pulses -/

/-- R142, its first two clauses, for TICKs alone after the ARM: the pin is ACTIVE until the D-th TICK, which drives it
INACTIVE, and InactiveFinish runs on the (D+I)-th TICK, setting `finished` and stopping the timer. -/
def Obligations.PulseLastsExactlyItsDurations : Prop :=
  ∀ (ch : Channel) (act inact : U16) (s u : State),
    s.fault = 0 → s.cfg.minLead = 1 → inFlight s ch = false → inFlight s (otherChannel ch) = false →
    act ≠ 0 → inact ≠ 0 → exec (.arm ch act inact) s = .next u →
    ∀ k : Nat, ∃ t, runOps (ticksOps k) u = .next t ∧ t.fault = 0 ∧
      (k < act.toNat → pinOf t ch = .active) ∧
      (act.toNat ≤ k → pinOf t ch = .inactive) ∧
      (k < act.toNat + inact.toNat → (chanOf t ch).finished = false ∧ inFlight t ch = true ∧ t.running = true) ∧
      (act.toNat + inact.toNat ≤ k → (chanOf t ch).finished = true ∧ inFlight t ch = false ∧ t.running = false)

/-- R142, its third clause, for TICKs alone after the ARM: the MATCH records of the whole pulse. -/
def Obligations.PulseEmitsItsMatches : Prop :=
  ∀ (ch : Channel) (act inact : U16) (s u : State),
    s.fault = 0 → s.cfg.minLead = 1 → inFlight s ch = false → inFlight s (otherChannel ch) = false →
    act ≠ 0 → inact ≠ 0 → exec (.arm ch act inact) s = .next u →
    ∃ t rs, runOps (ticksOps (act.toNat + inact.toNat)) u = .next t ∧ Appends u t rs ∧
      rs.countP (isMatchOf .activeStart ch) = (act.toNat + 255) / 256 - 1 ∧
      rs.filter (isMatchOf .inactiveStart ch) = [.compareMatch .inactiveStart ch (lo act)] ∧
      rs.countP (isMatchOf .inactiveContinue ch) =
        (if inact.toNat ≤ 256 - (lo act).toNat then 0
          else (inact.toNat - (256 - (lo act).toNat) + 255) / 256) ∧
      rs.countP (isMatchOf .inactiveFinish ch) = 1 ∧ rs.count (.finished ch) = 1

/-- A channel comes in flight only by its ARM (a host's, or the scheduler's at INSPECT) and leaves flight only by its
InactiveFinish handler on a TICK (R121, R145, R191). -/
def Obligations.FlightBeginsAtArmAndEndsAtFinish : Prop :=
  ∀ (i : Instr) (s t : State) (ch : Channel), exec i s = .next t →
    (inFlight s ch = false → inFlight t ch = true →
      (∃ act inact, i = .arm ch act inact) ∨ (i = .step ∧ s.sched = .inspect)) ∧
    (inFlight s ch = true → inFlight t ch = false →
      i = .tick ∧ (chanOf s ch).phase = .inactiveFinish ∧ (cmpOf s ch).ocr = s.tcnt + 1 ∧
      (chanOf t ch).finished = true)

/-- R139: under the invariant, `finished` is set only by InactiveFinish, once for an ARM, with one FINISHED record, and only
ARM clears it. -/
def Obligations.FinishedIsSetOncePerArm : Prop :=
  ∀ (i : Instr) (s t : State) (ch : Channel), BlockInv s → exec i s = .next t →
    (∃ rs, Appends s t rs ∧
      rs.count (.finished ch) = if (chanOf s ch).finished = false ∧ (chanOf t ch).finished = true then 1 else 0) ∧
    ((chanOf s ch).finished = false → (chanOf t ch).finished = true →
      i = .tick ∧ inFlight s ch = true ∧ (chanOf s ch).phase = .inactiveFinish) ∧
    ((chanOf s ch).finished = true → (chanOf t ch).finished = false →
      (∃ act inact, i = .arm ch act inact) ∨ (i = .step ∧ s.sched = .inspect))

/-- R37: while a channel is in flight, its state, its compare unit and its pin are written only by a TICK that stands at its
compare value. -/
def Obligations.ArmedChannelIsWrittenOnlyByItsMatch : Prop :=
  ∀ (i : Instr) (s t : State) (ch : Channel), inFlight s ch = true → exec i s = .next t →
    i ≠ .tick ∨ s.running = false ∨ (cmpOf s ch).ocr ≠ s.tcnt + 1 →
    chanOf t ch = chanOf s ch ∧ cmpOf t ch = cmpOf s ch ∧ pinOf t ch = pinOf s ch

/-! ### POLL -/

/-- R140: POLL emits the value of `finished` and changes nothing else; a faulted block refuses it. -/
def Obligations.PollOnlyReports : Prop :=
  ∀ (ch : Channel) (s : State),
    (s.fault = 0 →
      exec (.poll ch) s = .next { s with trace := s.trace ++ [.pollRes ch (chanOf s ch).finished] }) ∧
    (s.fault ≠ 0 → exec (.poll ch) s = .refused .faulted)

/-! ### STEP -/

/-- R162 and R163: at INSPECT a positive counter arms channel A and waits for it, a negative one channel B, with the
configured durations (R88): `ACTIVE_TICKS` and `INACTIVE_TICKS` for both channels, or with separate pairs (R10; log entry 7)
A's own pair for A and B's for B. An ARM that faults is the whole step (R161, R14). -/
def Obligations.InspectIssuesThePulse : Prop :=
  ∀ s : State, s.fault = 0 → s.sched = .inspect →
    (0 < s.counter.toInt → ∃ u,
      exec (.arm .a (requestedActive s.cfg .a) (requestedInactive s.cfg .a)) s = .next u ∧
      exec .step s = .next (if u.fault = 0 then { u with sched := .waitA } else u)) ∧
    (s.counter.toInt < 0 → ∃ u,
      exec (.arm .b (requestedActive s.cfg .b) (requestedInactive s.cfg .b)) s = .next u ∧
      exec .step s = .next (if u.fault = 0 then { u with sched := .waitB } else u)) ∧
    (s.cfg.perChannel = none → ∀ ch,
      requestedActive s.cfg ch = BitVec.ofNat 16 s.cfg.activeTicks ∧
      requestedInactive s.cfg ch = BitVec.ofNat 16 s.cfg.inactiveTicks) ∧
    (∀ da db, s.cfg.perChannel = some (da, db) →
      requestedActive s.cfg .a = BitVec.ofNat 16 da.active ∧ requestedInactive s.cfg .a = BitVec.ofNat 16 da.inactive ∧
      requestedActive s.cfg .b = BitVec.ofNat 16 db.active ∧ requestedInactive s.cfg .b = BitVec.ofNat 16 db.inactive)

/-- R169: at INSPECT with the counter at zero a STEP is a no-op. -/
def Obligations.InspectIdlesAtZero : Prop :=
  ∀ s : State, s.fault = 0 → s.sched = .inspect → s.counter = 0 → exec .step s = .next s

/-- R164 and R166: a wait state polls `finished`, moves on when it is true and otherwise changes nothing; it emits no
record. -/
def Obligations.WaitPollsFinished : Prop :=
  ∀ s : State, s.fault = 0 →
    (s.sched = .waitA → exec .step s =
      .next (if (chanOf s .a).finished = true then { s with sched := .commitA } else s)) ∧
    (s.sched = .waitB → exec .step s =
      .next (if (chanOf s .b).finished = true then { s with sched := .commitB } else s))

/-- R165 and R168: the commit consumes one unit only if the counter still has its sign, and returns to INSPECT. -/
def Obligations.CommitConsumesOneUnit : Prop :=
  ∀ s : State, s.fault = 0 →
    (s.sched = .commitA → exec .step s = .next
      (if 0 < s.counter.toInt then
        { s with counter := s.counter - 1, trace := s.trace ++ [.counter (s.counter - 1)], sched := .inspect }
      else { s with sched := .inspect })) ∧
    (s.sched = .commitB → exec .step s = .next
      (if s.counter.toInt < 0 then
        { s with counter := s.counter + 1, trace := s.trace ++ [.counter (s.counter + 1)], sched := .inspect }
      else { s with sched := .inspect }))

/-- From a quiescent state, under the invariant, every STEP is a no-op and every TICK changes nothing (R170). -/
def Obligations.QuiescentStateStays : Prop :=
  ∀ s : State, BlockInv s → s.fault = 0 → quiescent s = true →
    exec .step s = .next s ∧ exec .tick s = .next s

/-- A held scheduler stays held but for a TICK that runs the InactiveFinish handler of the channel it waits for (R164,
R141). -/
def Obligations.OnlyFinishLiftsTheHold : Prop :=
  ∀ (i : Instr) (s t : State), held s = true → exec i s = .next t → held t = false →
    i = .tick ∧ ∃ ch, (s.sched = .waitA ∧ ch = .a ∨ s.sched = .waitB ∧ ch = .b) ∧
      inFlight s ch = true ∧ (chanOf s ch).phase = .inactiveFinish ∧ (cmpOf s ch).ocr = s.tcnt + 1

/-- Only STEP changes the scheduler's control state; in particular no interrupt does (R21, R193). -/
def Obligations.OnlyStepMovesTheScheduler : Prop :=
  ∀ (i : Instr) (s t : State), exec i s = .next t → i ≠ .step → t.sched = s.sched

/-- What R194 rests on: a SAMPLE and a TICK touch disjoint state, so that in either order they leave the same state, but for
the order of their records: each appends what it appends when it runs alone. -/
def Obligations.SampleAndTickCommute : Prop :=
  ∀ (raw : U2) (s : State), s.fault = 0 →
    ∃ u v t t' rs rt, exec (.sample raw) s = .next u ∧ Appends s u rs ∧ exec .tick s = .next v ∧ Appends s v rt ∧
      runOps [.sample raw, .tick] s = .next t ∧ runOps [.tick, .sample raw] s = .next t' ∧
      Appends s t (rs ++ rt) ∧ Appends s t' (rt ++ rs) ∧ t' = { t with trace := t'.trace }

/-- Conservation (R172, on the schedule that ticks each pulse to its end): from INSPECT with the counter at k > 0 and no
channel in flight, k rounds complete exactly k pulses on channel A, never arm channel B, and leave the counter at 0 at
INSPECT. -/
def Obligations.PositiveCounterDrainsOnChannelA : Prop :=
  ∀ (s : State) (k : Nat), BlockInv s → s.fault = 0 → s.cfg.minLead = 1 → s.sched = .inspect →
    inFlight s .a = false → inFlight s .b = false → s.counter.toInt = (k : Int) →
    ∃ t rs,
      runOps (List.replicate k
        (.step :: ticksOps ((durationsOf s.cfg .a).active + (durationsOf s.cfg .a).inactive)
          ++ [.step, .step])).flatten s = .next t ∧
      Appends s t rs ∧ rs.count (.finished .a) = k ∧ rs.countP (isArmedOf .a) = k ∧ rs.countP (isArmedOf .b) = 0 ∧
      t.counter = 0 ∧ t.sched = .inspect ∧ inFlight t .a = false ∧ inFlight t .b = false

/-- The mirror of `PositiveCounterDrainsOnChannelA` for a negative counter on channel B (R172). -/
def Obligations.NegativeCounterDrainsOnChannelB : Prop :=
  ∀ (s : State) (k : Nat), BlockInv s → s.fault = 0 → s.cfg.minLead = 1 → s.sched = .inspect →
    inFlight s .a = false → inFlight s .b = false → s.counter.toInt = -(k : Int) →
    ∃ t rs,
      runOps (List.replicate k
        (.step :: ticksOps ((durationsOf s.cfg .b).active + (durationsOf s.cfg .b).inactive)
          ++ [.step, .step])).flatten s = .next t ∧
      Appends s t rs ∧ rs.count (.finished .b) = k ∧ rs.countP (isArmedOf .b) = k ∧ rs.countP (isArmedOf .a) = 0 ∧
      t.counter = 0 ∧ t.sched = .inspect ∧ inFlight t .a = false ∧ inFlight t .b = false

/-! ### Invariants -/

/-- Every step keeps the invariant (R43, items 1 to 8), from every state that has it. -/
def Obligations.EveryStepKeepsTheInvariant : Prop :=
  ∀ s t : State, BlockInv s → step s = .next t → BlockInv t

/-- The state after any launch, and the reset state, have the invariant and the scheduler's exclusivity. -/
def Obligations.LaunchEstablishesTheInvariant : Prop :=
  (∀ (c : Config) (s : State), launch c = .next s → BlockInv s ∧ SchedExclusive s) ∧
  BlockInv State.reset ∧ SchedExclusive State.reset

/-- Mutual exclusivity (R171): with no host ARM, a SAMPLE, TICK, POLL or STEP keeps the invariant and the scheduler's
exclusivity (R43 item 9), and raises no fault. -/
def Obligations.SchedulerNeverOverlapsPulses : Prop :=
  ∀ (i : Instr) (s t : State), BlockInv s → SchedExclusive s → (∀ ch act inact, i ≠ .arm ch act inact) →
    exec i s = .next t → BlockInv t ∧ SchedExclusive t ∧ t.fault = 0
end

