-- ==== Sys2Proof/Laws/Decode.lean ====
section
/-! SUPPORT. The fields of a laid-out word (spec/30_encoding.md R70) and of a serialised word (spec/20_memory.md R52), bit by
bit. -/

namespace Sys2Proof

/-- The bytes of a word serialise that word (R52). -/
theorem wordOfBytes_bytes (w : OpWord) :
    wordOfBytes (w.extractLsb' 0 8) (w.extractLsb' 8 8) (w.extractLsb' 16 8) (w.extractLsb' 24 8)
      (w.extractLsb' 32 8) (w.extractLsb' 40 8) (w.extractLsb' 48 8) (w.extractLsb' 56 8) = w := by
  apply BitVec.eq_of_getLsbD_eq
  intro i hi
  simp only [wordOfBytes, BitVec.getLsbD_append, BitVec.getLsbD_extractLsb']
  interval_cases i <;> simp

/-- A whole word at the boundary is decoded as that word, and the bytes after it stay (R53, R78). -/
theorem decodeBytes_wordBytes (w : OpWord) (rest : List Byte) :
    decodeBytes (wordBytes w ++ rest) =
      match decodeWord w with
      | .operation i => .operation i rest
      | .illegal why => .illegal why rest := by
  cases h : decodeWord w <;>
    simp only [wordBytes, List.cons_append, List.nil_append, decodeBytes, wordOfBytes_bytes, h]

/-- A decoded operation leaves eight bytes fewer (R53). -/
theorem decodeBytes_operation_length {bytes : List Byte} {i : Instr} {rest : List Byte}
    (h : decodeBytes bytes = .operation i rest) : bytes.length = rest.length + 8 := by
  unfold decodeBytes at h
  split at h
  · cases h
  · split at h <;> cases h
    simp
  · cases h

theorem opField_layout (op : U8) (ch : BitVec 1) (low : BitVec 32) : opField (layout op ch low) = op := by
  apply BitVec.eq_of_getLsbD_eq
  intro i hi
  simp only [opField, layout, BitVec.getLsbD_append, BitVec.getLsbD_extractLsb']
  interval_cases i <;> simp

theorem channelField_layout (op : U8) (ch : BitVec 1) (low : BitVec 32) : channelField (layout op ch low) = ch := by
  apply BitVec.eq_of_getLsbD_eq
  intro i hi
  simp only [channelField, layout, BitVec.getLsbD_append, BitVec.getLsbD_extractLsb']
  interval_cases i
  simp

theorem low_layout (op : U8) (ch : BitVec 1) (low : BitVec 32) : (layout op ch low).extractLsb' 0 32 = low := by
  apply BitVec.eq_of_getLsbD_eq
  intro i hi
  simp only [layout, BitVec.getLsbD_append, BitVec.getLsbD_extractLsb']
  interval_cases i <;> simp

theorem actField_layout (op : U8) (ch : BitVec 1) (act inact : U16) :
    actField (layout op ch (act ++ inact)) = act := by
  apply BitVec.eq_of_getLsbD_eq
  intro i hi
  simp only [actField, layout, BitVec.getLsbD_append, BitVec.getLsbD_extractLsb']
  interval_cases i <;> simp

theorem inactField_layout (op : U8) (ch : BitVec 1) (act inact : U16) :
    inactField (layout op ch (act ++ inact)) = inact := by
  apply BitVec.eq_of_getLsbD_eq
  intro i hi
  simp only [inactField, layout, BitVec.getLsbD_append, BitVec.getLsbD_extractLsb']
  interval_cases i <;> simp

/-- The opcode field of an operation's word is its opcode (R71). -/
theorem opField_encode (i : Instr) : opField (encode i) = i.opcode := by
  cases i <;> exact opField_layout ..

end Sys2Proof
end

