-- ==== Sys2Proof/Laws/State.lean ====
section
/-! SUPPORT. The small lemmas of the channel-indexed fields and of the named operations: one per field per update. -/

namespace Sys2Proof.Machine

/-! ### `pick` and `put` -/

@[simp] theorem pick_put_same {α : Type} (p : PerChannel α) (ch : Channel) (v : α) : pick (put p ch v) ch = v := by
  cases ch <;> rfl
@[simp] theorem pick_put_other {α : Type} (p : PerChannel α) (ch : Channel) (v : α) :
    pick (put p ch v) (otherChannel ch) = pick p (otherChannel ch) := by
  cases ch <;> rfl
@[simp] theorem pick_other_put {α : Type} (p : PerChannel α) (ch : Channel) (v : α) :
    pick (put p (otherChannel ch) v) ch = pick p ch := by
  cases ch <;> rfl
@[simp] theorem put_put {α : Type} (p : PerChannel α) (ch : Channel) (v w : α) : put (put p ch v) ch w = put p ch w := by
  cases ch <;> rfl
@[simp] theorem put_pick {α : Type} (p : PerChannel α) (ch : Channel) : put p ch (pick p ch) = p := by
  cases ch <;> rfl
@[simp] theorem put_a {α : Type} (p : PerChannel α) (v : α) : put p .a v = ⟨v, p.b⟩ := rfl
@[simp] theorem put_b {α : Type} (p : PerChannel α) (v : α) : put p .b v = ⟨p.a, v⟩ := rfl
@[simp] theorem pick_a {α : Type} (p : PerChannel α) : pick p .a = p.a := rfl
@[simp] theorem pick_b {α : Type} (p : PerChannel α) : pick p .b = p.b := rfl
@[simp] theorem otherChannel_a : otherChannel .a = .b := rfl
@[simp] theorem otherChannel_b : otherChannel .b = .a := rfl
@[simp] theorem otherChannel_other (ch : Channel) : otherChannel (otherChannel ch) = ch := by cases ch <;> rfl
theorem otherChannel_ne (ch : Channel) : otherChannel ch ≠ ch := by cases ch <;> decide
@[simp] theorem ownerOf_a : ownerOf .a = .a := rfl
@[simp] theorem ownerOf_b : ownerOf .b = .b := rfl
theorem channel_eq_or_other (c ch : Channel) : c = ch ∨ c = otherChannel ch := by cases c <;> cases ch <;> decide

/-! ### `setCmp` -/

@[simp] theorem setCmp_cfg (ch : Channel) (u : CompareUnit) (s : State) : (setCmp ch u s).cfg = s.cfg := rfl
@[simp] theorem setCmp_hist (ch : Channel) (u : CompareUnit) (s : State) : (setCmp ch u s).hist = s.hist := rfl
@[simp] theorem setCmp_acc (ch : Channel) (u : CompareUnit) (s : State) : (setCmp ch u s).acc = s.acc := rfl
@[simp] theorem setCmp_counter (ch : Channel) (u : CompareUnit) (s : State) : (setCmp ch u s).counter = s.counter := rfl
@[simp] theorem setCmp_tcnt (ch : Channel) (u : CompareUnit) (s : State) : (setCmp ch u s).tcnt = s.tcnt := rfl
@[simp] theorem setCmp_running (ch : Channel) (u : CompareUnit) (s : State) : (setCmp ch u s).running = s.running := rfl
@[simp] theorem setCmp_owner (ch : Channel) (u : CompareUnit) (s : State) : (setCmp ch u s).owner = s.owner := rfl
@[simp] theorem setCmp_cmp (ch : Channel) (u : CompareUnit) (s : State) : (setCmp ch u s).cmp = put s.cmp ch u := rfl
@[simp] theorem setCmp_chan (ch : Channel) (u : CompareUnit) (s : State) : (setCmp ch u s).chan = s.chan := rfl
@[simp] theorem setCmp_pin (ch : Channel) (u : CompareUnit) (s : State) : (setCmp ch u s).pin = s.pin := rfl
@[simp] theorem setCmp_sched (ch : Channel) (u : CompareUnit) (s : State) : (setCmp ch u s).sched = s.sched := rfl
@[simp] theorem setCmp_fault (ch : Channel) (u : CompareUnit) (s : State) : (setCmp ch u s).fault = s.fault := rfl
@[simp] theorem setCmp_trace (ch : Channel) (u : CompareUnit) (s : State) : (setCmp ch u s).trace = s.trace := rfl
@[simp] theorem setCmp_input (ch : Channel) (u : CompareUnit) (s : State) : (setCmp ch u s).input = s.input := rfl
@[simp] theorem setCmp_draws (ch : Channel) (u : CompareUnit) (s : State) : (setCmp ch u s).draws = s.draws := rfl

/-! ### `setChan` -/

@[simp] theorem setChan_cfg (ch : Channel) (c : ChannelState) (s : State) : (setChan ch c s).cfg = s.cfg := rfl
@[simp] theorem setChan_hist (ch : Channel) (c : ChannelState) (s : State) : (setChan ch c s).hist = s.hist := rfl
@[simp] theorem setChan_acc (ch : Channel) (c : ChannelState) (s : State) : (setChan ch c s).acc = s.acc := rfl
@[simp] theorem setChan_counter (ch : Channel) (c : ChannelState) (s : State) : (setChan ch c s).counter = s.counter := rfl
@[simp] theorem setChan_tcnt (ch : Channel) (c : ChannelState) (s : State) : (setChan ch c s).tcnt = s.tcnt := rfl
@[simp] theorem setChan_running (ch : Channel) (c : ChannelState) (s : State) : (setChan ch c s).running = s.running := rfl
@[simp] theorem setChan_owner (ch : Channel) (c : ChannelState) (s : State) : (setChan ch c s).owner = s.owner := rfl
@[simp] theorem setChan_cmp (ch : Channel) (c : ChannelState) (s : State) : (setChan ch c s).cmp = s.cmp := rfl
@[simp] theorem setChan_chan (ch : Channel) (c : ChannelState) (s : State) : (setChan ch c s).chan = put s.chan ch c := rfl
@[simp] theorem setChan_pin (ch : Channel) (c : ChannelState) (s : State) : (setChan ch c s).pin = s.pin := rfl
@[simp] theorem setChan_sched (ch : Channel) (c : ChannelState) (s : State) : (setChan ch c s).sched = s.sched := rfl
@[simp] theorem setChan_fault (ch : Channel) (c : ChannelState) (s : State) : (setChan ch c s).fault = s.fault := rfl
@[simp] theorem setChan_trace (ch : Channel) (c : ChannelState) (s : State) : (setChan ch c s).trace = s.trace := rfl
@[simp] theorem setChan_input (ch : Channel) (c : ChannelState) (s : State) : (setChan ch c s).input = s.input := rfl
@[simp] theorem setChan_draws (ch : Channel) (c : ChannelState) (s : State) : (setChan ch c s).draws = s.draws := rfl

/-! ### `emit` -/

@[simp] theorem emit_cfg (r : TraceRecord) (s : State) : (emit r s).cfg = s.cfg := rfl
@[simp] theorem emit_hist (r : TraceRecord) (s : State) : (emit r s).hist = s.hist := rfl
@[simp] theorem emit_acc (r : TraceRecord) (s : State) : (emit r s).acc = s.acc := rfl
@[simp] theorem emit_counter (r : TraceRecord) (s : State) : (emit r s).counter = s.counter := rfl
@[simp] theorem emit_tcnt (r : TraceRecord) (s : State) : (emit r s).tcnt = s.tcnt := rfl
@[simp] theorem emit_running (r : TraceRecord) (s : State) : (emit r s).running = s.running := rfl
@[simp] theorem emit_owner (r : TraceRecord) (s : State) : (emit r s).owner = s.owner := rfl
@[simp] theorem emit_cmp (r : TraceRecord) (s : State) : (emit r s).cmp = s.cmp := rfl
@[simp] theorem emit_chan (r : TraceRecord) (s : State) : (emit r s).chan = s.chan := rfl
@[simp] theorem emit_pin (r : TraceRecord) (s : State) : (emit r s).pin = s.pin := rfl
@[simp] theorem emit_sched (r : TraceRecord) (s : State) : (emit r s).sched = s.sched := rfl
@[simp] theorem emit_fault (r : TraceRecord) (s : State) : (emit r s).fault = s.fault := rfl
@[simp] theorem emit_trace (r : TraceRecord) (s : State) : (emit r s).trace = s.trace ++ [r] := rfl
@[simp] theorem emit_input (r : TraceRecord) (s : State) : (emit r s).input = s.input := rfl
@[simp] theorem emit_draws (r : TraceRecord) (s : State) : (emit r s).draws = s.draws := rfl

/-! ### `setCounter` -/

@[simp] theorem setCounter_cfg (v : I8) (s : State) : (setCounter v s).cfg = s.cfg := rfl
@[simp] theorem setCounter_hist (v : I8) (s : State) : (setCounter v s).hist = s.hist := rfl
@[simp] theorem setCounter_acc (v : I8) (s : State) : (setCounter v s).acc = s.acc := rfl
@[simp] theorem setCounter_counter (v : I8) (s : State) : (setCounter v s).counter = v := rfl
@[simp] theorem setCounter_tcnt (v : I8) (s : State) : (setCounter v s).tcnt = s.tcnt := rfl
@[simp] theorem setCounter_running (v : I8) (s : State) : (setCounter v s).running = s.running := rfl
@[simp] theorem setCounter_owner (v : I8) (s : State) : (setCounter v s).owner = s.owner := rfl
@[simp] theorem setCounter_cmp (v : I8) (s : State) : (setCounter v s).cmp = s.cmp := rfl
@[simp] theorem setCounter_chan (v : I8) (s : State) : (setCounter v s).chan = s.chan := rfl
@[simp] theorem setCounter_pin (v : I8) (s : State) : (setCounter v s).pin = s.pin := rfl
@[simp] theorem setCounter_sched (v : I8) (s : State) : (setCounter v s).sched = s.sched := rfl
@[simp] theorem setCounter_fault (v : I8) (s : State) : (setCounter v s).fault = s.fault := rfl
@[simp] theorem setCounter_trace (v : I8) (s : State) : (setCounter v s).trace = s.trace ++ [.counter v] := rfl
@[simp] theorem setCounter_input (v : I8) (s : State) : (setCounter v s).input = s.input := rfl
@[simp] theorem setCounter_draws (v : I8) (s : State) : (setCounter v s).draws = s.draws := rfl

/-! ### `startTimer` -/

@[simp] theorem startTimer_cfg (ch : Channel) (s : State) : (startTimer ch s).cfg = s.cfg := rfl
@[simp] theorem startTimer_hist (ch : Channel) (s : State) : (startTimer ch s).hist = s.hist := rfl
@[simp] theorem startTimer_acc (ch : Channel) (s : State) : (startTimer ch s).acc = s.acc := rfl
@[simp] theorem startTimer_counter (ch : Channel) (s : State) : (startTimer ch s).counter = s.counter := rfl
@[simp] theorem startTimer_tcnt (ch : Channel) (s : State) : (startTimer ch s).tcnt = 0 := rfl
@[simp] theorem startTimer_running (ch : Channel) (s : State) : (startTimer ch s).running = true := rfl
@[simp] theorem startTimer_owner (ch : Channel) (s : State) : (startTimer ch s).owner = ownerOf ch := rfl
@[simp] theorem startTimer_cmp (ch : Channel) (s : State) : (startTimer ch s).cmp = s.cmp := rfl
@[simp] theorem startTimer_chan (ch : Channel) (s : State) : (startTimer ch s).chan = s.chan := rfl
@[simp] theorem startTimer_pin (ch : Channel) (s : State) : (startTimer ch s).pin = s.pin := rfl
@[simp] theorem startTimer_sched (ch : Channel) (s : State) : (startTimer ch s).sched = s.sched := rfl
@[simp] theorem startTimer_fault (ch : Channel) (s : State) : (startTimer ch s).fault = s.fault := rfl
@[simp] theorem startTimer_trace (ch : Channel) (s : State) : (startTimer ch s).trace = s.trace := rfl
@[simp] theorem startTimer_input (ch : Channel) (s : State) : (startTimer ch s).input = s.input := rfl
@[simp] theorem startTimer_draws (ch : Channel) (s : State) : (startTimer ch s).draws = s.draws := rfl

/-! ### `raiseFault` -/

@[simp] theorem raiseFault_cfg (code : FaultCode) (ch : Channel) (s : State) : (raiseFault code ch s).cfg = s.cfg := rfl
@[simp] theorem raiseFault_hist (code : FaultCode) (ch : Channel) (s : State) : (raiseFault code ch s).hist = s.hist := rfl
@[simp] theorem raiseFault_acc (code : FaultCode) (ch : Channel) (s : State) : (raiseFault code ch s).acc = s.acc := rfl
@[simp] theorem raiseFault_counter (code : FaultCode) (ch : Channel) (s : State) : (raiseFault code ch s).counter = s.counter := rfl
@[simp] theorem raiseFault_tcnt (code : FaultCode) (ch : Channel) (s : State) : (raiseFault code ch s).tcnt = s.tcnt := rfl
@[simp] theorem raiseFault_running (code : FaultCode) (ch : Channel) (s : State) : (raiseFault code ch s).running = s.running := rfl
@[simp] theorem raiseFault_owner (code : FaultCode) (ch : Channel) (s : State) : (raiseFault code ch s).owner = s.owner := rfl
@[simp] theorem raiseFault_cmp (code : FaultCode) (ch : Channel) (s : State) : (raiseFault code ch s).cmp = s.cmp := rfl
@[simp] theorem raiseFault_chan (code : FaultCode) (ch : Channel) (s : State) : (raiseFault code ch s).chan = s.chan := rfl
@[simp] theorem raiseFault_pin (code : FaultCode) (ch : Channel) (s : State) : (raiseFault code ch s).pin = s.pin := rfl
@[simp] theorem raiseFault_sched (code : FaultCode) (ch : Channel) (s : State) : (raiseFault code ch s).sched = s.sched := rfl
@[simp] theorem raiseFault_fault (code : FaultCode) (ch : Channel) (s : State) : (raiseFault code ch s).fault = code.code := rfl
@[simp] theorem raiseFault_trace (code : FaultCode) (ch : Channel) (s : State) : (raiseFault code ch s).trace = s.trace ++ [.fault code.code ch] := rfl
@[simp] theorem raiseFault_input (code : FaultCode) (ch : Channel) (s : State) : (raiseFault code ch s).input = s.input := rfl
@[simp] theorem raiseFault_draws (code : FaultCode) (ch : Channel) (s : State) : (raiseFault code ch s).draws = s.draws := rfl

/-! ### `setSched` -/

@[simp] theorem setSched_cfg (c : SchedState) (s : State) : (setSched c s).cfg = s.cfg := rfl
@[simp] theorem setSched_hist (c : SchedState) (s : State) : (setSched c s).hist = s.hist := rfl
@[simp] theorem setSched_acc (c : SchedState) (s : State) : (setSched c s).acc = s.acc := rfl
@[simp] theorem setSched_counter (c : SchedState) (s : State) : (setSched c s).counter = s.counter := rfl
@[simp] theorem setSched_tcnt (c : SchedState) (s : State) : (setSched c s).tcnt = s.tcnt := rfl
@[simp] theorem setSched_running (c : SchedState) (s : State) : (setSched c s).running = s.running := rfl
@[simp] theorem setSched_owner (c : SchedState) (s : State) : (setSched c s).owner = s.owner := rfl
@[simp] theorem setSched_cmp (c : SchedState) (s : State) : (setSched c s).cmp = s.cmp := rfl
@[simp] theorem setSched_chan (c : SchedState) (s : State) : (setSched c s).chan = s.chan := rfl
@[simp] theorem setSched_pin (c : SchedState) (s : State) : (setSched c s).pin = s.pin := rfl
@[simp] theorem setSched_sched (c : SchedState) (s : State) : (setSched c s).sched = c := rfl
@[simp] theorem setSched_fault (c : SchedState) (s : State) : (setSched c s).fault = s.fault := rfl
@[simp] theorem setSched_trace (c : SchedState) (s : State) : (setSched c s).trace = s.trace := rfl
@[simp] theorem setSched_input (c : SchedState) (s : State) : (setSched c s).input = s.input := rfl
@[simp] theorem setSched_draws (c : SchedState) (s : State) : (setSched c s).draws = s.draws := rfl

/-! ### `advanceTimer` -/

@[simp] theorem advanceTimer_cfg (s : State) : (advanceTimer s).cfg = s.cfg := rfl
@[simp] theorem advanceTimer_hist (s : State) : (advanceTimer s).hist = s.hist := rfl
@[simp] theorem advanceTimer_acc (s : State) : (advanceTimer s).acc = s.acc := rfl
@[simp] theorem advanceTimer_counter (s : State) : (advanceTimer s).counter = s.counter := rfl
@[simp] theorem advanceTimer_tcnt (s : State) : (advanceTimer s).tcnt = s.tcnt + 1 := rfl
@[simp] theorem advanceTimer_running (s : State) : (advanceTimer s).running = s.running := rfl
@[simp] theorem advanceTimer_owner (s : State) : (advanceTimer s).owner = s.owner := rfl
@[simp] theorem advanceTimer_cmp (s : State) : (advanceTimer s).cmp = s.cmp := rfl
@[simp] theorem advanceTimer_chan (s : State) : (advanceTimer s).chan = s.chan := rfl
@[simp] theorem advanceTimer_pin (s : State) : (advanceTimer s).pin = s.pin := rfl
@[simp] theorem advanceTimer_sched (s : State) : (advanceTimer s).sched = s.sched := rfl
@[simp] theorem advanceTimer_fault (s : State) : (advanceTimer s).fault = s.fault := rfl
@[simp] theorem advanceTimer_trace (s : State) : (advanceTimer s).trace = s.trace := rfl
@[simp] theorem advanceTimer_input (s : State) : (advanceTimer s).input = s.input := rfl
@[simp] theorem advanceTimer_draws (s : State) : (advanceTimer s).draws = s.draws := rfl

/-! ### `shiftHistory` -/

@[simp] theorem shiftHistory_cfg (l : U2) (s : State) : (shiftHistory l s).cfg = s.cfg := rfl
@[simp] theorem shiftHistory_hist (l : U2) (s : State) : (shiftHistory l s).hist = s.hist.extractLsb' 0 2 ++ l := rfl
@[simp] theorem shiftHistory_acc (l : U2) (s : State) : (shiftHistory l s).acc = s.acc := rfl
@[simp] theorem shiftHistory_counter (l : U2) (s : State) : (shiftHistory l s).counter = s.counter := rfl
@[simp] theorem shiftHistory_tcnt (l : U2) (s : State) : (shiftHistory l s).tcnt = s.tcnt := rfl
@[simp] theorem shiftHistory_running (l : U2) (s : State) : (shiftHistory l s).running = s.running := rfl
@[simp] theorem shiftHistory_owner (l : U2) (s : State) : (shiftHistory l s).owner = s.owner := rfl
@[simp] theorem shiftHistory_cmp (l : U2) (s : State) : (shiftHistory l s).cmp = s.cmp := rfl
@[simp] theorem shiftHistory_chan (l : U2) (s : State) : (shiftHistory l s).chan = s.chan := rfl
@[simp] theorem shiftHistory_pin (l : U2) (s : State) : (shiftHistory l s).pin = s.pin := rfl
@[simp] theorem shiftHistory_sched (l : U2) (s : State) : (shiftHistory l s).sched = s.sched := rfl
@[simp] theorem shiftHistory_fault (l : U2) (s : State) : (shiftHistory l s).fault = s.fault := rfl
@[simp] theorem shiftHistory_trace (l : U2) (s : State) : (shiftHistory l s).trace = s.trace := rfl
@[simp] theorem shiftHistory_input (l : U2) (s : State) : (shiftHistory l s).input = s.input := rfl
@[simp] theorem shiftHistory_draws (l : U2) (s : State) : (shiftHistory l s).draws = s.draws := rfl

/-! ### `accumulate` -/

@[simp] theorem accumulate_cfg (s : State) : (accumulate s).cfg = s.cfg := rfl
@[simp] theorem accumulate_hist (s : State) : (accumulate s).hist = s.hist := rfl
@[simp] theorem accumulate_acc (s : State) : (accumulate s).acc = s.acc + delta s.hist := rfl
@[simp] theorem accumulate_counter (s : State) : (accumulate s).counter = s.counter := rfl
@[simp] theorem accumulate_tcnt (s : State) : (accumulate s).tcnt = s.tcnt := rfl
@[simp] theorem accumulate_running (s : State) : (accumulate s).running = s.running := rfl
@[simp] theorem accumulate_owner (s : State) : (accumulate s).owner = s.owner := rfl
@[simp] theorem accumulate_cmp (s : State) : (accumulate s).cmp = s.cmp := rfl
@[simp] theorem accumulate_chan (s : State) : (accumulate s).chan = s.chan := rfl
@[simp] theorem accumulate_pin (s : State) : (accumulate s).pin = s.pin := rfl
@[simp] theorem accumulate_sched (s : State) : (accumulate s).sched = s.sched := rfl
@[simp] theorem accumulate_fault (s : State) : (accumulate s).fault = s.fault := rfl
@[simp] theorem accumulate_trace (s : State) : (accumulate s).trace = s.trace := rfl
@[simp] theorem accumulate_input (s : State) : (accumulate s).input = s.input := rfl
@[simp] theorem accumulate_draws (s : State) : (accumulate s).draws = s.draws := rfl

/-! ### `drawLead` -/

@[simp] theorem drawLead_cfg (ch : Channel) (missed : Bool) (s : State) : (drawLead ch missed s).cfg = s.cfg := rfl
@[simp] theorem drawLead_hist (ch : Channel) (missed : Bool) (s : State) : (drawLead ch missed s).hist = s.hist := rfl
@[simp] theorem drawLead_acc (ch : Channel) (missed : Bool) (s : State) : (drawLead ch missed s).acc = s.acc := rfl
@[simp] theorem drawLead_counter (ch : Channel) (missed : Bool) (s : State) : (drawLead ch missed s).counter = s.counter := rfl
@[simp] theorem drawLead_tcnt (ch : Channel) (missed : Bool) (s : State) : (drawLead ch missed s).tcnt = s.tcnt := rfl
@[simp] theorem drawLead_running (ch : Channel) (missed : Bool) (s : State) : (drawLead ch missed s).running = s.running := rfl
@[simp] theorem drawLead_owner (ch : Channel) (missed : Bool) (s : State) : (drawLead ch missed s).owner = s.owner := rfl
@[simp] theorem drawLead_cmp (ch : Channel) (missed : Bool) (s : State) : (drawLead ch missed s).cmp = put s.cmp ch { cmpOf s ch with skip := missed } := rfl
@[simp] theorem drawLead_chan (ch : Channel) (missed : Bool) (s : State) : (drawLead ch missed s).chan = s.chan := rfl
@[simp] theorem drawLead_pin (ch : Channel) (missed : Bool) (s : State) : (drawLead ch missed s).pin = s.pin := rfl
@[simp] theorem drawLead_sched (ch : Channel) (missed : Bool) (s : State) : (drawLead ch missed s).sched = s.sched := rfl
@[simp] theorem drawLead_fault (ch : Channel) (missed : Bool) (s : State) : (drawLead ch missed s).fault = s.fault := rfl
@[simp] theorem drawLead_trace (ch : Channel) (missed : Bool) (s : State) : (drawLead ch missed s).trace = s.trace := rfl
@[simp] theorem drawLead_input (ch : Channel) (missed : Bool) (s : State) : (drawLead ch missed s).input = s.input := rfl
@[simp] theorem drawLead_draws (ch : Channel) (missed : Bool) (s : State) : (drawLead ch missed s).draws = s.draws + 1 := rfl

/-! ### `setPin`: the pin, and a record exactly when it changes -/

@[simp] theorem setPin_cfg (ch : Channel) (v : PinLevel) (s : State) : (setPin ch v s).cfg = s.cfg := by
  unfold setPin; split <;> rfl
@[simp] theorem setPin_hist (ch : Channel) (v : PinLevel) (s : State) : (setPin ch v s).hist = s.hist := by
  unfold setPin; split <;> rfl
@[simp] theorem setPin_acc (ch : Channel) (v : PinLevel) (s : State) : (setPin ch v s).acc = s.acc := by
  unfold setPin; split <;> rfl
@[simp] theorem setPin_counter (ch : Channel) (v : PinLevel) (s : State) : (setPin ch v s).counter = s.counter := by
  unfold setPin; split <;> rfl
@[simp] theorem setPin_tcnt (ch : Channel) (v : PinLevel) (s : State) : (setPin ch v s).tcnt = s.tcnt := by
  unfold setPin; split <;> rfl
@[simp] theorem setPin_running (ch : Channel) (v : PinLevel) (s : State) : (setPin ch v s).running = s.running := by
  unfold setPin; split <;> rfl
@[simp] theorem setPin_owner (ch : Channel) (v : PinLevel) (s : State) : (setPin ch v s).owner = s.owner := by
  unfold setPin; split <;> rfl
@[simp] theorem setPin_cmp (ch : Channel) (v : PinLevel) (s : State) : (setPin ch v s).cmp = s.cmp := by
  unfold setPin; split <;> rfl
@[simp] theorem setPin_chan (ch : Channel) (v : PinLevel) (s : State) : (setPin ch v s).chan = s.chan := by
  unfold setPin; split <;> rfl
@[simp] theorem setPin_pin (ch : Channel) (v : PinLevel) (s : State) :
    (setPin ch v s).pin = put s.pin ch v := by
  unfold setPin
  split
  · next h => subst h; exact (put_pick s.pin ch).symm
  · rfl
@[simp] theorem setPin_sched (ch : Channel) (v : PinLevel) (s : State) : (setPin ch v s).sched = s.sched := by
  unfold setPin; split <;> rfl
@[simp] theorem setPin_fault (ch : Channel) (v : PinLevel) (s : State) : (setPin ch v s).fault = s.fault := by
  unfold setPin; split <;> rfl
@[simp] theorem setPin_trace (ch : Channel) (v : PinLevel) (s : State) :
    (setPin ch v s).trace = s.trace ++ (if pinOf s ch = v then [] else [.pin ch v]) := by
  unfold setPin
  split <;> simp [emit]
@[simp] theorem setPin_input (ch : Channel) (v : PinLevel) (s : State) : (setPin ch v s).input = s.input := by
  unfold setPin; split <;> rfl
@[simp] theorem setPin_draws (ch : Channel) (v : PinLevel) (s : State) : (setPin ch v s).draws = s.draws := by
  unfold setPin; split <;> rfl
/-- All that `setPin` does (R125, R83). -/
theorem setPin_eq (ch : Channel) (v : PinLevel) (s : State) :
    setPin ch v s = { s with
      pin := put s.pin ch v, trace := s.trace ++ (if pinOf s ch = v then [] else [.pin ch v]) } := by
  apply State.ext <;> simp

/-! ### `stopTimerIfOwner` -/

@[simp] theorem stopTimerIfOwner_cfg (ch : Channel) (s : State) : (stopTimerIfOwner ch s).cfg = s.cfg := by
  unfold stopTimerIfOwner; split <;> rfl
@[simp] theorem stopTimerIfOwner_hist (ch : Channel) (s : State) : (stopTimerIfOwner ch s).hist = s.hist := by
  unfold stopTimerIfOwner; split <;> rfl
@[simp] theorem stopTimerIfOwner_acc (ch : Channel) (s : State) : (stopTimerIfOwner ch s).acc = s.acc := by
  unfold stopTimerIfOwner; split <;> rfl
@[simp] theorem stopTimerIfOwner_counter (ch : Channel) (s : State) : (stopTimerIfOwner ch s).counter = s.counter := by
  unfold stopTimerIfOwner; split <;> rfl
@[simp] theorem stopTimerIfOwner_tcnt (ch : Channel) (s : State) : (stopTimerIfOwner ch s).tcnt = s.tcnt := by
  unfold stopTimerIfOwner; split <;> rfl
@[simp] theorem stopTimerIfOwner_running (ch : Channel) (s : State) :
    (stopTimerIfOwner ch s).running = if s.owner = ownerOf ch then false else s.running := by
  unfold stopTimerIfOwner; split <;> rfl
@[simp] theorem stopTimerIfOwner_owner (ch : Channel) (s : State) : (stopTimerIfOwner ch s).owner = s.owner := by
  unfold stopTimerIfOwner; split <;> rfl
@[simp] theorem stopTimerIfOwner_cmp (ch : Channel) (s : State) : (stopTimerIfOwner ch s).cmp = s.cmp := by
  unfold stopTimerIfOwner; split <;> rfl
@[simp] theorem stopTimerIfOwner_chan (ch : Channel) (s : State) : (stopTimerIfOwner ch s).chan = s.chan := by
  unfold stopTimerIfOwner; split <;> rfl
@[simp] theorem stopTimerIfOwner_pin (ch : Channel) (s : State) : (stopTimerIfOwner ch s).pin = s.pin := by
  unfold stopTimerIfOwner; split <;> rfl
@[simp] theorem stopTimerIfOwner_sched (ch : Channel) (s : State) : (stopTimerIfOwner ch s).sched = s.sched := by
  unfold stopTimerIfOwner; split <;> rfl
@[simp] theorem stopTimerIfOwner_fault (ch : Channel) (s : State) : (stopTimerIfOwner ch s).fault = s.fault := by
  unfold stopTimerIfOwner; split <;> rfl
@[simp] theorem stopTimerIfOwner_trace (ch : Channel) (s : State) : (stopTimerIfOwner ch s).trace = s.trace := by
  unfold stopTimerIfOwner; split <;> rfl
@[simp] theorem stopTimerIfOwner_input (ch : Channel) (s : State) : (stopTimerIfOwner ch s).input = s.input := by
  unfold stopTimerIfOwner; split <;> rfl
@[simp] theorem stopTimerIfOwner_draws (ch : Channel) (s : State) : (stopTimerIfOwner ch s).draws = s.draws := by
  unfold stopTimerIfOwner; split <;> rfl

end Sys2Proof.Machine
end

