-- ==== Sys2Proof/Laws/Exec.lean ====
section
/-! SUPPORT. What `exec` and `step` can do, said once: an unfaulted block runs the operation's effect, a faulted one refuses. -/

namespace Sys2Proof.Machine

/-- The effect of each operation on an unfaulted block. -/
def effectOf (i : Instr) (s : State) : State :=
  match i with
  | .sample raw => sampleEffect raw s
  | .tick => tickEffect s
  | .arm ch act inact => armThen ch act inact id s
  | .poll ch => emit (.pollRes ch (chanOf s ch).finished) s
  | .step => schedEffect s

theorem exec_eq_completes (i : Instr) (s : State) : exec i s = completes s (effectOf i s) := by
  cases i <;> rfl

/-- Inversion of `completes`: the only next state, and the only stop. -/
theorem completes_next_iff (s t u : State) : completes s t = .next u ↔ s.fault = 0 ∧ u = t := by
  unfold completes
  split
  · next h => exact ⟨fun e => ⟨h, (Host.Outcome.next.inj e).symm⟩, fun e => congrArg _ e.2.symm⟩
  · next h => exact ⟨(fun e => nomatch e), fun e => absurd e.1 h⟩

theorem completes_of_unfaulted {s : State} (t : State) (h : s.fault = 0) : completes s t = .next t := if_pos h

theorem completes_of_faulted {s : State} (t : State) (h : s.fault ≠ 0) : completes s t = .refused .faulted := if_neg h

/-- Inversion of `exec`: every operation's next state is its effect, on an unfaulted block. -/
theorem exec_next_iff (i : Instr) (s t : State) : exec i s = .next t ↔ s.fault = 0 ∧ t = effectOf i s := by
  rw [exec_eq_completes, completes_next_iff]

/-- Inversion of `step`: a next state comes from a decoded operation or from an illegal word. -/
theorem step_next_cases {s t : State} (h : step s = .next t) :
    (∃ i rest, decodeBytes s.input = .operation i rest ∧ s.fault = 0 ∧ t = effectOf i { s with input := rest }) ∨
    (∃ why rest, decodeBytes s.input = .illegal why rest ∧ s.fault = 0 ∧
      t = raiseFault .illegalOp .a { s with input := rest }) := by
  unfold step at h
  split at h
  · cases h
  · cases h
  · next why rest hd =>
    rw [execIllegal, completes_next_iff] at h
    exact .inr ⟨why, rest, hd, h.1, h.2⟩
  · next i rest hd =>
    rw [exec_next_iff] at h
    exact .inl ⟨i, rest, hd, h.1, h.2⟩

end Sys2Proof.Machine
end

