-- ==== Sys2Proof/Laws/Engine.lean ====
section
/-! SUPPORT. What the engine's shared operations do, said once each: the compare programming of the handlers (R131 to R136), the
frame of a handler, and the units serviced on a tick. -/

namespace Sys2Proof.Machine

/-! ### The handlers as one compare programming each -/

/-- LEAD_CHECK after a finishing compare is programmed is `programmed` (R144). -/
theorem leadCheck_programmed (ch : Channel) (c : ChannelState) (v : U8) (com : OutputAction) (s : State) :
    leadCheck ch (setChan ch c (setCmp ch { cmpOf s ch with ocr := v, com := com } s)) = programmed s ch c v com := by
  by_cases h : compareDistance s.tcnt v < s.cfg.minLead <;> cases ch <;>
    simp [leadCheck, leadTooShort, drawLead, programmed, cmpOf, h] <;> rfl

/-- R131. -/
theorem activeFit_eq (ch : Channel) (s : State) :
    activeFit ch s = programmed s ch { chanOf s ch with phase := .inactiveStart } (chanOf s ch).aLo .driveInactive :=
  leadCheck_programmed ch _ _ _ s

/-- R132. -/
theorem activeChain_eq (ch : Channel) (s : State) :
    activeChain ch s = programmedForWrap s ch { chanOf s ch with aHi := (chanOf s ch).aHi - 1 } := rfl

/-- R134. -/
theorem inactiveFit_eq (ch : Channel) (p : U8) (s : State) :
    inactiveFit ch p s =
      programmed s ch { chanOf s ch with phase := .inactiveFinish } (p + lo (chanOf s ch).inact) (cmpOf s ch).com :=
  leadCheck_programmed ch _ _ _ s

/-- R135. -/
theorem inactiveOver_eq (ch : Channel) (rem : Nat) (s : State) :
    inactiveOver ch rem s = programmedForWrap s ch { chanOf s ch with
      inact := (chanOf s ch).inact - BitVec.ofNat 16 rem, phase := .inactiveContinue } := rfl

/-- R136. -/
theorem inactiveContinue_eq (ch : Channel) (s : State) :
    inactiveContinue ch s =
      if fits (hi (chanOf s ch).inact) (lo (chanOf s ch).inact) then
        programmed s ch { chanOf s ch with phase := .inactiveFinish } (lo (chanOf s ch).inact) (cmpOf s ch).com
      else programmedForWrap s ch { chanOf s ch with inact := (chanOf s ch).inact - 256 } := by
  unfold inactiveContinue
  split
  · exact leadCheck_programmed ch _ _ _ s
  · rfl

/-- R138. -/
theorem inactiveFinish_eq (ch : Channel) (s : State) :
    inactiveFinish ch s =
      { s with
        cmp := put s.cmp ch { cmpOf s ch with ie := false }
        running := if s.owner = ownerOf ch then false else s.running
        chan := put s.chan ch { chanOf s ch with finished := true }
        trace := s.trace ++ [.finished ch] } := by
  by_cases h : s.owner = ownerOf ch <;>
    simp [inactiveFinish, stopTimerIfOwner, h, emit, setChan, setCmp, chanOf]

/-! ### The fit test on durations -/

/-- R129: the fit test is a bound on the duration. -/
theorem fits_iff (h l : U8) : fits h l = true ↔ 256 * h.toNat + l.toNat ≤ 256 := by
  unfold fits
  have := h.isLt; have := l.isLt
  simp [BitVec.toNat_eq]; omega

theorem hi_toNat (d : U16) : (hi d).toNat = d.toNat / 256 := by
  have := d.isLt
  simp [hi, BitVec.extractLsb'_toNat, Nat.shiftRight_eq_div_pow]; omega

theorem lo_toNat (d : U16) : (lo d).toNat = d.toNat % 256 := by
  simp [lo, BitVec.extractLsb'_toNat]

/-- R129, for a 16-bit duration: it fits in one timer cycle exactly when it is at most 256 ticks. -/
theorem fits_duration_iff (d : U16) : fits (hi d) (lo d) = true ↔ d.toNat ≤ 256 := by
  rw [fits_iff, hi_toNat, lo_toNat]; omega

/-! ### Ticks -/

/-- No missed match is consumed away from the compare value, or where `skip` is clear (R124). -/
theorem consumeSkip_of_not {ch : Channel} {s : State} (h : atCompare s ch = false ∨ (cmpOf s ch).skip = false) :
    consumeSkip ch s = s := by
  unfold consumeSkip
  rcases h with h | h <;> simp [h]

theorem matchesNow_of_away {ch : Channel} {s : State} (h : atCompare s ch = false) : matchesNow s ch = false := by
  simp [matchesNow, h]

/-- All that the output action does (R125). -/
theorem outputAction_eq (ch : Channel) (s : State) : outputAction ch s = { s with
    pin := if (cmpOf s ch).com = .driveInactive then put s.pin ch .inactive else s.pin
    trace := s.trace ++ (if (cmpOf s ch).com = .driveInactive ∧ pinOf s ch = .active then [.pin ch .inactive] else []) } := by
  unfold outputAction
  cases h : (cmpOf s ch).com <;> cases h' : pinOf s ch <;> simp [setPin_eq, h']

/-- A match of an enabled unit, at the advanced position: the record and pin of `matchedState`, then the handler (R122). -/
theorem serviceMatch_enabled {ch : Channel} {s : State} (h : inFlight s ch = true) :
    serviceMatch ch (advanceTimer s) = handler (chanOf s ch).phase ch (matchedState s ch) := by
  have h1 : inFlight (outputAction ch (advanceTimer s)) ch = true := by rw [outputAction_eq]; exact h
  simp only [serviceMatch, interruptOnMatch, h1, if_true]
  rw [outputAction_eq]
  rfl

theorem tick_stopped {s : State} (h : s.running = false) : tickEffect s = s := by simp [tickEffect, h]

/-- A TICK of the running timer, unit by unit (R122). -/
theorem tick_running {s : State} (h : s.running = true) : tickEffect s = serviceUnits (advanceTimer s) := by
  simp [tickEffect, h]

/-! ### The frame of one unit's service -/

/-- What `t` may differ in from `s` when only unit `ch` was serviced: channel `ch`'s own fields, the timer's stop (only where
`ch` owned it and was in flight), the draws, and records appended that all name `ch` (R37, R138, R194). -/
structure UnitFrame (ch : Channel) (s t : State) : Prop where
  cfg : t.cfg = s.cfg
  hist : t.hist = s.hist
  acc : t.acc = s.acc
  counter : t.counter = s.counter
  tcnt : t.tcnt = s.tcnt
  owner : t.owner = s.owner
  sched : t.sched = s.sched
  fault : t.fault = s.fault
  input : t.input = s.input
  otherCmp : cmpOf t (otherChannel ch) = cmpOf s (otherChannel ch)
  otherChan : chanOf t (otherChannel ch) = chanOf s (otherChannel ch)
  otherPin : pinOf t (otherChannel ch) = pinOf s (otherChannel ch)
  running : t.running = s.running ∨ (t.running = false ∧ inFlight s ch = true ∧ s.owner = ownerOf ch)

theorem UnitFrame.refl (ch : Channel) (s : State) : UnitFrame ch s s :=
  ⟨rfl, rfl, rfl, rfl, rfl, rfl, rfl, rfl, rfl, rfl, rfl, rfl, .inl rfl⟩

theorem programmed_frame (m : State) (ch : Channel) (c : ChannelState) (v : U8) (com : OutputAction) :
    UnitFrame ch m (programmed m ch c v com) := by
  cases ch <;> exact ⟨rfl, rfl, rfl, rfl, rfl, rfl, rfl, rfl, rfl, rfl, rfl, rfl, .inl rfl⟩

theorem programmedForWrap_frame (m : State) (ch : Channel) (c : ChannelState) :
    UnitFrame ch m (programmedForWrap m ch c) := by
  cases ch <;> exact ⟨rfl, rfl, rfl, rfl, rfl, rfl, rfl, rfl, rfl, rfl, rfl, rfl, .inl rfl⟩

theorem consumeSkip_frame (ch : Channel) (s : State) : UnitFrame ch s (consumeSkip ch s) := by
  unfold consumeSkip
  split
  · cases ch <;> exact ⟨rfl, rfl, rfl, rfl, rfl, rfl, rfl, rfl, rfl, rfl, rfl, rfl, .inl rfl⟩
  · exact UnitFrame.refl ch s

theorem outputAction_frame (ch : Channel) (s : State) : UnitFrame ch s (outputAction ch s) := by
  rw [outputAction_eq]
  refine ⟨rfl, rfl, rfl, rfl, rfl, rfl, rfl, rfl, rfl, rfl, rfl, ?_, .inl rfl⟩
  unfold pinOf
  dsimp only
  split <;> simp

/-- A handler touches its own channel alone (R194). -/
theorem handler_frame (p : Phase) (ch : Channel) (s : State) (h : inFlight s ch = true) :
    UnitFrame ch s (handler p ch s) := by
  cases p with
  | activeStart =>
    unfold handler activeDecide
    dsimp only
    split
    · rw [activeFit_eq]; exact programmed_frame ..
    · rw [activeChain_eq]; exact programmedForWrap_frame ..
  | inactiveStart =>
    unfold handler inactiveStart
    dsimp only
    split
    · rw [inactiveFit_eq]; exact programmed_frame ..
    · rw [inactiveOver_eq]; exact programmedForWrap_frame ..
  | inactiveContinue =>
    unfold handler
    dsimp only
    rw [inactiveContinue_eq]
    split
    · exact programmed_frame ..
    · exact programmedForWrap_frame ..
  | inactiveFinish =>
    unfold handler
    dsimp only
    rw [inactiveFinish_eq]
    refine ⟨rfl, rfl, rfl, rfl, rfl, rfl, rfl, rfl, rfl, pick_put_other .., pick_put_other .., rfl, ?_⟩
    dsimp only
    split
    · next ho => exact .inr ⟨rfl, h, ho⟩
    · exact .inl rfl

theorem UnitFrame.trans' {ch : Channel} {s t u : State} (h : UnitFrame ch s t) (h' : UnitFrame ch t u)
    (hf : inFlight t ch = inFlight s ch) : UnitFrame ch s u where
  cfg := h'.cfg.trans h.cfg
  hist := h'.hist.trans h.hist
  acc := h'.acc.trans h.acc
  counter := h'.counter.trans h.counter
  tcnt := h'.tcnt.trans h.tcnt
  owner := h'.owner.trans h.owner
  sched := h'.sched.trans h.sched
  fault := h'.fault.trans h.fault
  input := h'.input.trans h.input
  otherCmp := h'.otherCmp.trans h.otherCmp
  otherChan := h'.otherChan.trans h.otherChan
  otherPin := h'.otherPin.trans h.otherPin
  running := by
    rcases h'.running with e | ⟨e, hi, ho⟩
    · rcases h.running with e' | ⟨e', hi, ho⟩
      · exact .inl (e.trans e')
      · exact .inr ⟨e.trans e', hi, ho⟩
    · exact .inr ⟨e, hf ▸ hi, h.owner ▸ ho⟩

theorem outputAction_cmp (ch : Channel) (s : State) : (outputAction ch s).cmp = s.cmp := by
  rw [outputAction_eq]

theorem outputAction_chan (ch : Channel) (s : State) : (outputAction ch s).chan = s.chan := by
  rw [outputAction_eq]

/-- Servicing a matching unit touches its own channel alone (R125, R194). -/
theorem serviceMatch_frame (ch : Channel) (s : State) : UnitFrame ch s (serviceMatch ch s) := by
  have h1 := outputAction_frame ch s
  have e : inFlight (outputAction ch s) ch = inFlight s ch := by simp [inFlight, cmpOf, outputAction_cmp]
  unfold serviceMatch interruptOnMatch
  split
  · next hf =>
    have h2 : UnitFrame ch (outputAction ch s)
        (emit (.compareMatch (chanOf (outputAction ch s) ch).phase ch (outputAction ch s).tcnt) (outputAction ch s)) :=
      ⟨rfl, rfl, rfl, rfl, rfl, rfl, rfl, rfl, rfl, rfl, rfl, rfl, .inl rfl⟩
    exact h1.trans' (h2.trans' (handler_frame _ _ _ hf) rfl) e
  · exact h1

/-! ### A TICK by what its units do -/

/-- An idle unit whose action changes no pin does nothing on a match (R146). -/
theorem serviceMatch_idle {ch : Channel} {t : State} (h : inFlight t ch = false)
    (hp : (cmpOf t ch).com = .hold ∨ pinOf t ch = .inactive) : serviceMatch ch t = t := by
  have ho : outputAction ch t = t := by
    unfold outputAction
    rcases hp with hp | hp
    · simp [hp]
    · cases (cmpOf t ch).com <;> simp [setPin, hp]
  unfold serviceMatch interruptOnMatch
  simp [ho, h]

/-- A quiet unit leaves any state that agrees with `s` on that unit as it is (R122). -/
theorem serviceMatch_quiet {s t : State} {ch : Channel} (h : QuietUnit s ch) (hc : cmpOf t ch = cmpOf s ch)
    (hp : pinOf t ch = pinOf s ch) :
    (if matchesNow (advanceTimer s) ch then serviceMatch ch t else t) = t := by
  rcases h with h | ⟨hi, -, hq⟩
  · have : atCompare (advanceTimer s) ch = false := beq_eq_false_iff_ne.2 (Ne.symm h)
    simp [matchesNow_of_away this]
  · have : serviceMatch ch t = t := serviceMatch_idle (by simpa [inFlight, hc] using hi) (by rwa [hc, hp])
    simp [this]

theorem consumeSkip_quiet {s : State} {ch : Channel} (h : QuietUnit s ch) :
    consumeSkip ch (advanceTimer s) = advanceTimer s := by
  rcases h with h | ⟨-, hs, -⟩
  · exact consumeSkip_of_not (.inl (beq_eq_false_iff_ne.2 (Ne.symm h)))
  · exact consumeSkip_of_not (.inr hs)

/-- A TICK with one enabled match is that unit's handler on `matchedState` (R122 to R126). -/
theorem tick_soleMatch {s : State} {ch : Channel} (h : SoleMatch s ch) :
    tickEffect s = handler (chanOf s ch).phase ch (matchedState s ch) := by
  have hs : (cmpOf (advanceTimer s) ch).skip = false := h.notSkipped
  have hm : matchesNow (advanceTimer s) ch = true := by
    have : atCompare (advanceTimer s) ch = true := beq_iff_eq.2 h.reached.symm
    simp [matchesNow, this, hs]
  have hc := consumeSkip_of_not (Or.inr hs)
  have hc' := consumeSkip_quiet h.otherQuiet
  have hsv := serviceMatch_enabled h.enabled
  have hf := serviceMatch_frame ch (advanceTimer s)
  rw [tick_running h.running, serviceUnits]
  cases ch with
  | a =>
    rw [hc, show consumeSkip .b (advanceTimer s) = _ from hc']
    simp only [hm, if_true]
    rw [hsv] at hf ⊢
    exact serviceMatch_quiet h.otherQuiet hf.otherCmp hf.otherPin
  | b =>
    rw [show consumeSkip .a (advanceTimer s) = _ from hc', hc]
    simp only [hm, if_true]
    rw [show (if matchesNow (advanceTimer s) .a = true then serviceMatch .a (advanceTimer s) else advanceTimer s) =
      advanceTimer s from serviceMatch_quiet h.otherQuiet rfl rfl]
    exact hsv

/-! ### ARM -/

/-- An ARM raises no fault exactly in contract (R127, R184, R185, R128). -/
theorem armFault_none_iff (ch : Channel) (act inact : U16) (s : State) :
    armFault ch act inact s = none ↔
      inFlight s ch = false ∧ inFlight s (otherChannel ch) = false ∧ act ≠ 0 ∧ inact ≠ 0 := by
  unfold armFault
  cases inFlight s ch <;> cases inFlight s (otherChannel ch) <;> by_cases ha : act = 0 <;> by_cases hi : inact = 0 <;>
    simp [ha, hi]

/-- All that an ARM inside a step can do: its writes and what follows, or one fault with nothing else (R127, R14). -/
theorem armThen_cases (ch : Channel) (act inact : U16) (after : State → State) (s : State) :
    (armFault ch act inact s = none ∧ armThen ch act inact after s = after (armEffect ch act inact s)) ∨
    (∃ code, armFault ch act inact s = some code ∧ armThen ch act inact after s = raiseFault code ch s) := by
  unfold armThen
  cases armFault ch act inact s with
  | none => exact .inl ⟨rfl, rfl⟩
  | some code => exact .inr ⟨code, rfl, rfl⟩

end Sys2Proof.Machine
end

