-- ==== Sys2Proof/Laws/PerInstr.lean ====
section
/-! SUPPORT. Statements about every operation as syntax, one lemma per constructor of Instr. -/

namespace Sys2Proof.Laws.OpcodeField

/-- The encoded word has the operation's opcode at [63:56], zeros at the reserved bits [55:49] and [47:32] (R70), and only
ARM has a bit of [31:2] set (R72 to R76). -/
def Statement (i : Instr) : Prop :=
  opField (encode i) = i.opcode ∧
  (encode i).extractLsb' 49 7 = 0 ∧ (encode i).extractLsb' 32 16 = 0 ∧
  ((encode i).extractLsb' 2 30 ≠ 0 → ∃ ch act inact, i = .arm ch act inact)

/-- The reserved bits of a laid-out word are zeros (R70). -/
theorem layout_reserved (op : U8) (ch : BitVec 1) (low : BitVec 32) :
    (layout op ch low).extractLsb' 49 7 = 0 ∧ (layout op ch low).extractLsb' 32 16 = 0 := by
  constructor <;> apply BitVec.eq_of_getLsbD_eq <;> intro i hi <;>
    simp only [layout, BitVec.getLsbD_append, BitVec.getLsbD_extractLsb'] <;> interval_cases i <;> simp

theorem sample (raw : U2) : Statement (.sample raw) :=
  ⟨opField_encode _, (layout_reserved ..).1, (layout_reserved ..).2, fun h => absurd (by revert raw; decide) h⟩

theorem tick : Statement .tick :=
  ⟨opField_encode _, (layout_reserved ..).1, (layout_reserved ..).2, fun h => absurd (by decide) h⟩

theorem arm (ch : Channel) (act inact : U16) : Statement (.arm ch act inact) :=
  ⟨opField_encode _, (layout_reserved ..).1, (layout_reserved ..).2, fun _ => ⟨ch, act, inact, rfl⟩⟩

theorem poll (ch : Channel) : Statement (.poll ch) :=
  ⟨opField_encode _, (layout_reserved ..).1, (layout_reserved ..).2, fun h => absurd (by cases ch <;> decide) h⟩

theorem step : Statement .step :=
  ⟨opField_encode _, (layout_reserved ..).1, (layout_reserved ..).2, fun h => absurd (by decide) h⟩

end Sys2Proof.Laws.OpcodeField
end

