-- ==== Sys2Proof/Tests/Slice0.lean ====
section
/-! SUPPORT. The model's own tests: ill-formed configurations, words written out from the spec's encodings, one-step vectors of
spec/95_test_vectors.md, and a witness for the hypotheses of each obligation. -/

namespace Sys2Proof.Tests

open Sys2Proof Sys2Proof.Machine

/-! ### Small states -/

/-- The parameters of the scheduler vectors (spec/95_test_vectors.md section 5). -/
def testConfig : Config where
  counterLimit := 5
  activeTicks := 3
  inactiveTicks := 2
  perChannel := none
  detentRule := .fullHistory
  cwWired := true
  ccwWired := true
  activeLevel := .high
  prescale := 64
  minLead := 1

/-- The same with separate pairs (R10). -/
def pairConfig : Config := { testConfig with perChannel := some (⟨7, 8⟩, ⟨9, 10⟩) }

/-- The reset state under those parameters. -/
def fresh : State := State.initial testConfig

/-- Channel A armed for `act` and `inact` ticks, at position `q`. -/
def armedA (act inact : U16) (q : U8) : State := { armEffect .a act inact fresh with tcnt := q }

/-- Channel A in flight in a late phase, its compare value `v`, at position `q`. -/
def lateA (p : Phase) (inact : U16) (v q : U8) : State :=
  { armedA 3 2 q with
    chan := ⟨⟨p, 0, 3, inact, false⟩, ChannelState.reset⟩
    cmp := ⟨⟨v, .driveInactive, true, false⟩, CompareUnit.reset⟩
    pin := ⟨.inactive, .inactive⟩ }

/-- Both pulses of program P6 finished but B's last tick: unit A idles at the same compare value as unit B's. -/
def lateB : State :=
  { lateA .inactiveFinish 2 5 4 with
    owner := .b
    chan := ⟨⟨.inactiveFinish, 0, 3, 2, true⟩, ⟨.inactiveFinish, 0, 3, 2, false⟩⟩
    cmp := ⟨⟨5, .driveInactive, false, false⟩, ⟨5, .driveInactive, true, false⟩⟩
    sched := .waitB
    counter := -1 }

/-- The state an outcome answers, if it answers one. -/
def nextOf (r : Result) : Option State :=
  match r with
  | .next t => some t
  | .fault _ => none
  | .refused _ => none

/-- The records an operation appends. -/
def recordsOf (i : Instr) (s : State) : Option (List TraceRecord) :=
  (nextOf (exec i s)).map fun t => t.trace.drop s.trace.length

/-! ### Well-formedness: an ill-formed term for each check (R9, R186) -/

theorem test_config_wellFormed : testConfig.wellFormed = true := by decide
theorem test_limit_0 : Config.wellFormed { testConfig with counterLimit := 0 } = false := by decide
theorem test_limit_128 : Config.wellFormed { testConfig with counterLimit := 128 } = false := by decide
theorem test_active_0 : Config.wellFormed { testConfig with activeTicks := 0 } = false := by decide
theorem test_active_65536 : Config.wellFormed { testConfig with activeTicks := 65536 } = false := by decide
theorem test_inactive_0 : Config.wellFormed { testConfig with inactiveTicks := 0 } = false := by decide
theorem test_inactive_65536 : Config.wellFormed { testConfig with inactiveTicks := 65536 } = false := by decide
theorem test_pair_a_bad :
    Config.wellFormed { testConfig with perChannel := some (⟨0, 1⟩, ⟨1, 1⟩) } = false := by decide
theorem test_pair_b_bad :
    Config.wellFormed { testConfig with perChannel := some (⟨1, 1⟩, ⟨1, 65536⟩) } = false := by decide
theorem test_prescale_0 : Config.wellFormed { testConfig with prescale := 0 } = false := by decide
theorem test_lead_0 : Config.wellFormed { testConfig with minLead := 0 } = false := by decide
/-- VF9. -/
theorem test_launch_refused : launch { testConfig with minLead := 0 } = .refused .badConfiguration := rfl

/-! ### Decoding: words written out field by field from R70 to R76 -/

theorem test_decode_sample :
    decodeWord (0b00000001#8 ++ 0b0000000#7 ++ 0b0#1 ++ 0b0000000000000000#16 ++ 0b0000000000000000#16 ++
      0b00000000000000#14 ++ 0b10#2) = .operation (.sample 0b10) := by decide
theorem test_decode_tick : decodeWord (0b00000010#8 ++ 0#56) = .operation .tick := by decide
theorem test_decode_arm :
    decodeWord (0b00000011#8 ++ 0b0000000#7 ++ 0b1#1 ++ 0b0000000000000000#16 ++ 0b0001001000110100#16 ++
      0b0101011001111000#16) = .operation (.arm .b 0x1234 0x5678) := by decide
theorem test_decode_poll :
    decodeWord (0b00000100#8 ++ 0b0000000#7 ++ 0b1#1 ++ 0#48) = .operation (.poll .b) := by decide
theorem test_decode_step : decodeWord (0b00000101#8 ++ 0#56) = .operation .step := by decide
/-- `arm B, 65535, 1`, and the same fields placed 16 bits too high (the note of group V-X). -/
theorem test_act_position :
    decodeWord 0x03010000FFFF0001#64 = .operation (.arm .b 65535 1) ∧
    decodeWord 0x0301FFFF00000001#64 = .illegal .fixedBitWrong := by decide
/-- VF7's words with a known opcode. -/
theorem test_fixed_bits :
    [0x0100000000000004#64, 0x0200000000000001#64, 0x0300010000010005#64, 0x0302000000010001#64,
      0x0400000000000001#64, 0x0500000000000100#64].map decodeWord = List.replicate 6 (.illegal .fixedBitWrong) := by
  decide
/-- VF7's words with an unknown opcode. -/
theorem test_unknown_opcodes :
    [0x0000000000000000#64, 0x0600000000000000#64, 0x8000000000000000#64].map decodeWord =
      List.replicate 3 (.illegal .unknownOpcode) := by decide
/-- R52: byte 0 holds bits [7:0]. -/
theorem test_byte_order :
    decodeBytes [0x64, 0x00, 0x2C, 0x01, 0x00, 0x00, 0x01, 0x03, 0xAA] = .operation (.arm .b 300 100) [0xAA] := by decide
/-- Words of trace records, from R80's table. -/
theorem test_record_words :
    (TraceRecord.counter (-1)).encode = 0x82000000000000FF#64 ∧ (TraceRecord.pin .b .active).encode = 0x8301000000000001#64 ∧
    (TraceRecord.fault 4 .b).encode = 0x8601000000000004#64 ∧
    (TraceRecord.compareMatch .inactiveFinish .a 144).encode = 0x9300000000000090#64 := by decide

/-! ### The assembler (R85, R86, group V-X) -/

theorem test_assemble_arm :
    assembleWords "arm A, 4660, 22136 ; as 0x1234, 0x5678".toList = some [0x0300000012345678#64] := by decide
theorem test_assemble_click :
    assembleWords "click ccw".toList =
      some [0x0100000000000002#64, 0x0100000000000000#64, 0x0100000000000001#64, 0x0100000000000003#64] := by decide

/-! ### One-step vectors -/

/-- VD1's fourth sample: EV_CW, COUNTER(1), history 4, accumulator 0. -/
theorem test_sample_click_cw :
    exec (.sample 0b11) { fresh with hist := 13, acc := 3 } =
      .next { fresh with hist := 4, acc := 0, counter := 1, trace := [.evCw, .counter 1] } := rfl
/-- VD4's sixth click: EV_CW alone at the bound. -/
theorem test_sample_clamped : recordsOf (.sample 0b11) { fresh with hist := 13, acc := 3, counter := 5 } = some [.evCw] := by
  decide
/-- R122's example. -/
theorem test_tick_example :
    recordsOf .tick (armedA 44 100 43) = some [.pin .a .inactive, .compareMatch .inactiveStart .a 44] := by decide
/-- P6's last tick of B: both units match, A's changes nothing, B's handler finishes and stops the timer. -/
theorem test_tick_both_units :
    (nextOf (exec .tick lateB)).map (fun t => (t.trace.drop lateB.trace.length, t.running, t.tcnt)) =
      some ([.compareMatch .inactiveFinish .b 5, .finished .b], false, 5) := by decide
/-- R127's example. -/
theorem test_arm_example :
    exec (.arm .a 300 100) fresh = .next { fresh with
      trace := [.armed .a 300 100, .pin .a .active]
      chan := ⟨⟨.activeStart, 0, 44, 100, false⟩, ChannelState.reset⟩
      cmp := ⟨⟨0, .hold, true, false⟩, CompareUnit.reset⟩
      pin := ⟨.active, .inactive⟩, running := true, owner := .a } := rfl
/-- VF6: OVERLAP comes before ZERO_DURATION. -/
theorem test_arm_overlap_first : recordsOf (.arm .b 0 0) (armedA 300 100 0) = some [.fault 4 .b] := by decide
/-- VE19: channel B was never armed. -/
theorem test_poll_unarmed : recordsOf (.poll .b) (lateA .inactiveFinish 2 5 4) = some [.pollRes .b false] := by decide
/-- VE19 after the finish. -/
theorem test_poll_finished : recordsOf (.poll .a) lateB = some [.pollRes .a true] := by decide
/-- VS2. -/
theorem test_step_issues :
    (nextOf (exec .step { fresh with counter := 1 })).map (fun t => (t.trace, t.sched)) =
      some ([.armed .a 3 2, .pin .a .active], .waitA) := by decide
/-- VS7: the guard of COMMIT_A. -/
theorem test_step_guard :
    exec .step { fresh with counter := -1, sched := .commitA } = .next { fresh with counter := -1 } := rfl
/-- R9, R38: the electrical level of an idle pin under each ACTIVE_LEVEL. -/
theorem test_electrical_level :
    electricalLevel fresh .a = .low ∧
    electricalLevel (State.initial { testConfig with activeLevel := .low }) .a = .high := by decide
/-- The machine fetches and runs the delivered word as its first operation. -/
theorem test_step_fetches : step (fresh.withFetchWord 64 0x0401000000000000) =
    .next { fresh with trace := [.pollRes .b false] } := rfl

/-! ### The invariant on the witness states -/

theorem fresh_inv : BlockInv fresh :=
  ⟨by decide, by decide, by decide, by decide, by decide, by decide, by constructor <;> decide, by constructor <;> decide⟩
theorem armedA_inv : BlockInv (armedA 3 2 2) :=
  ⟨by decide, by decide, by decide, by decide, by decide, by decide, by constructor <;> decide, by constructor <;> decide⟩
theorem lateB_inv : BlockInv lateB :=
  ⟨by decide, by decide, by decide, by decide, by decide, by decide, by constructor <;> decide, by constructor <;> decide⟩
theorem positive_inv : BlockInv { fresh with counter := 1 } :=
  ⟨by decide, by decide, by decide, by decide, by decide, by decide, by constructor <;> decide, by constructor <;> decide⟩
theorem negative_inv : BlockInv { fresh with counter := -1 } :=
  ⟨by decide, by decide, by decide, by decide, by decide, by decide, by constructor <;> decide, by constructor <;> decide⟩

/-- Log entry 10: a host ARM of channel A while the scheduler is at COMMIT_B is legal, and breaks R43 item 9. -/
theorem test_host_arm_breaks_item_9 :
    (nextOf (exec (.arm .a 1 1) { fresh with sched := .commitB })).map (fun t => (t.fault, t.sched, inFlight t .a)) =
      some (0, .commitB, true) := by decide

/-! ### Witnesses: for each obligation with hypotheses, states and operands that meet them

The clauses of one statement are met one after the other, at a boundary value where the clause has a range. -/

theorem witness_DecodeOfEncodeIsOperation : (Instr.arm .b 65535 1).wellFormed = true := by decide

theorem witness_EveryWordIsOneOperationOrIllegal :
    encode (.arm .b 65535 1) = 0x03010000FFFF0001#64 ∧ decodeWord 0 = .illegal .unknownOpcode := by decide

/-- Both conditions of R77, and the hypotheses of the clause on the step. -/
theorem witness_IllegalWordsRaiseIllegalOp :
    decodeWord 0x0600000000000000#64 = .illegal .unknownOpcode ∧
    decodeWord 0x0100000000000004#64 = .illegal .fixedBitWrong ∧
    { fresh with input := wordBytes 0x0100000000000004#64 ++ [] }.fault = 0 := by decide

theorem witness_StepRunsTheDecodedOperation :
    decodeBytes [0, 0, 0, 0, 0, 0, 0, 2, 7] = .operation .tick [7] ∧ Instr.tick.wellFormed = true := by decide

/-- One byte, and seven. -/
theorem witness_PartialWordIsRefused :
    step { fresh with input := [2] } = .refused .partialWord ∧
    step { fresh with input := [0, 0, 0, 0, 0, 0, 2] } = .refused .partialWord := ⟨rfl, rfl⟩

theorem witness_ResetStateIsTheSpecs : launch testConfig = .next fresh := rfl

/-- Configurations without and with separate pairs, refused and not refused; a legal scheduler's step. -/
theorem witness_BrokenConfigurationIsRefused :
    launch { testConfig with counterLimit := 128 } = .refused .badConfiguration ∧
    launch { testConfig with counterLimit := 127 } = .next (State.initial { testConfig with counterLimit := 127 }) ∧
    launch { testConfig with perChannel := some (⟨1, 1⟩, ⟨1, 65536⟩) } = .refused .badConfiguration ∧
    launch pairConfig = .next (State.initial pairConfig) ∧
    fresh.cfg.wellFormed = true ∧ ∃ t, exec .step { fresh with counter := 1 } = .next t :=
  ⟨rfl, rfl, rfl, rfl, by decide, _, rfl⟩

theorem witness_NoOperationChangesTheParameters :
    (∃ t, step (fresh.withFetchWord 64 0x0301000000010001) = .next t) ∧ launch testConfig = .next fresh := ⟨⟨_, rfl⟩, rfl⟩

/-- A step that faults, and a faulted block. -/
theorem witness_FaultsDiscardTheStepAndStopTheBlock :
    (∃ t, step (fresh.withFetchWord 64 0x0300000000000005) = .next t ∧ t.fault = 2) ∧
    exec .tick { fresh with fault := 3 } = .refused .faulted ∧
    step { fresh with fault := 3, input := wordBytes 0 } = .refused .faulted := ⟨⟨_, rfl, rfl⟩, rfl, rfl⟩

theorem witness_EveryOperationCompletesUnfaulted : fresh.fault = 0 := rfl

/-- A host ARM and a scheduler step that fault. -/
theorem witness_OnlyArmsFault :
    (∃ t, exec (.arm .a 0 5) fresh = .next t ∧ t.fault ≠ 0) ∧
    (∃ t, exec .step { armedA 3 2 0 with counter := -1 } = .next t ∧ t.fault ≠ 0) :=
  ⟨⟨_, rfl, by decide⟩, ⟨_, rfl, by decide⟩⟩

/-- The three faults, each alone; the first two with a zero duration too (VF5, VF6). -/
theorem witness_ArmFaultsInOrder :
    (armedA 3 2 0).fault = 0 ∧ inFlight (armedA 3 2 0) .a = true ∧
    inFlight (armedA 3 2 0) .b = false ∧ inFlight (armedA 3 2 0) (otherChannel .b) = true ∧
    inFlight fresh .a = false ∧ inFlight fresh (otherChannel .a) = false := by decide

/-- The largest fitting duration and the smallest that chains. -/
theorem witness_ArmStartsThePulse :
    fresh.fault = 0 ∧ inFlight fresh .a = false ∧ inFlight fresh (otherChannel .a) = false ∧
    (256#16 : U16) ≠ 0 ∧ (257#16 : U16) ≠ 0 ∧ (chanOf (armedA 256 1 0) .a).phase = .inactiveStart ∧
    (chanOf (armedA 257 1 0) .a).phase = .activeStart := by decide

theorem witness_SampleRunsTheDecoder : fresh.fault = 0 := rfl

/-- Each clause at its bound: 4 rises to 5 and 5 stays, −4 falls to −5 and −5 stays, and both unwired. -/
theorem witness_CallbacksAreClamped :
    cwCallback { fresh with counter := 4 } = { fresh with counter := 5, trace := [.counter 5] } ∧
    cwCallback { fresh with counter := 5 } = { fresh with counter := 5 } ∧
    ccwCallback { fresh with counter := -4 } = { fresh with counter := -5, trace := [.counter (-5)] } ∧
    ccwCallback { fresh with counter := -5 } = { fresh with counter := -5 } ∧
    cwCallback (State.initial { testConfig with cwWired := false }) = State.initial { testConfig with cwWired := false } ∧
    ccwCallback (State.initial { testConfig with ccwWired := false }) = State.initial { testConfig with ccwWired := false } := by
  decide

/-- Two states that agree on the decoder and differ elsewhere. -/
theorem witness_SampleIsAFunctionOfTheDecoderState :
    (armedA 3 2 2).cfg = fresh.cfg ∧ (armedA 3 2 2).hist = fresh.hist ∧ (armedA 3 2 2).acc = fresh.acc ∧
    (armedA 3 2 2).counter = fresh.counter ∧ armedA 3 2 2 ≠ fresh ∧
    (∃ t, exec (.sample 0b01) fresh = .next t) ∧ (∃ t, exec (.sample 0b01) (armedA 3 2 2) = .next t) :=
  ⟨rfl, rfl, rfl, rfl, by decide, ⟨_, rfl⟩, ⟨_, rfl⟩⟩

theorem witness_SampleFiresAtMostOneCallback :
    ∃ t, exec (.sample 0b11) { fresh with hist := 13, acc := 3 } = .next t ∧ t.trace.countP isEvent = 1 := ⟨_, rfl, rfl⟩

theorem witness_ClickFiresItsEventOnce : fresh.fault = 0 ∧ fresh.acc = 0 ∧ fresh.hist.extractLsb' 0 2 = 0 := by decide

/-- The two single-line glitches and the double one, at both ends of each clause's range, and the two exceptions. -/
theorem witness_GlitchesFireNothing :
    { fresh with acc := 2 }.acc.toInt = 2 ∧ { fresh with acc := -2 }.acc.toInt = -2 ∧
    { fresh with acc := 3 }.acc.toInt = 3 ∧ { fresh with acc := -3 }.acc.toInt = -3 ∧
    fresh.hist.extractLsb' 0 2 = (0b11#2 : U2) ^^^ 0b11#2 ∧ (0b11#2 : U2) ^^^ 0b10#2 = 0b01#2 ∧
    (0b11#2 : U2) ^^^ 0b01#2 = 0b10#2 ∧ (0b11#2 : U2) ^^^ 0b00#2 = 0b11#2 ∧
    delta (((0b11#2 : U2) ^^^ 0b11#2) ++ ((0b01#2 : U2) ^^^ 0b11#2)) = 1 ∧
    delta (((0b11#2 : U2) ^^^ 0b11#2) ++ ((0b10#2 : U2) ^^^ 0b11#2)) = -1 := by decide

/-- The counter at its upper bound, with a commit that leaves it. -/
theorem witness_CounterMovesByOneWithinItsBounds :
    fresh.cfg.wellFormed = true ∧ ({ fresh with counter := 5 }.counter.toInt = 5) ∧
    ∃ t, exec .step { fresh with counter := 5, sched := .commitA } = .next t ∧ t.counter = 4 :=
  ⟨by decide, by decide, _, rfl, rfl⟩

/-- A change, and a guarded commit with none. -/
theorem witness_CounterRecordsExactlyOnChange :
    recordsOf .step { fresh with counter := 1, sched := .commitA } = some [.counter 0] ∧
    recordsOf .step { fresh with sched := .commitA } = some [] := by decide

/-- A change, and a pin driven to the level it has. -/
theorem witness_PinRecordsExactlyOnChange :
    recordsOf .tick (armedA 3 2 2) = some [.pin .a .inactive, .compareMatch .inactiveStart .a 3] ∧
    recordsOf .tick lateB = some [.compareMatch .inactiveFinish .b 5, .finished .b] := by decide

/-- The wrap, and a stopped timer (VE18). -/
theorem witness_TimerCountsWhileItRuns :
    (∃ t, exec .tick (armedA 3 2 255) = .next t ∧ t.tcnt = 0) ∧ exec .tick fresh = .next fresh := ⟨⟨_, rfl, rfl⟩, rfl⟩

/-- Both units away; and an idle unit at its compare value. -/
theorem witness_TickWithQuietUnitsOnlyCounts :
    (armedA 3 2 0).fault = 0 ∧ (armedA 3 2 0).running = true ∧ QuietUnit (armedA 3 2 0) .a ∧ QuietUnit (armedA 3 2 0) .b ∧
    QuietUnit (armedA 3 2 255) .b :=
  ⟨rfl, rfl, .inl (by decide), .inl (by decide), .inr (by decide)⟩

/-- VE16's first tick. -/
theorem witness_MissedMatchOnlyClearsSkip :
    let s := { armedA 1 5 0 with cmp := ⟨⟨1, .driveInactive, true, true⟩, CompareUnit.reset⟩ }
    s.fault = 0 ∧ s.running = true ∧ (cmpOf s .a).ocr = s.tcnt + 1 ∧ (cmpOf s .a).skip = true ∧
      QuietUnit s (otherChannel .a) :=
  ⟨rfl, rfl, by decide, rfl, .inl (by decide)⟩

/-- Unit A idle at its compare value while B's pulse runs (VE21), B away from its own. -/
theorem witness_IdleUnitMatchChangesNothing :
    let s := { lateB with cmp := ⟨⟨5, .driveInactive, false, false⟩, ⟨9, .driveInactive, true, false⟩⟩ }
    BlockInv s ∧ inFlight s .a = false ∧ s.fault = 0 ∧ s.running = true ∧ (cmpOf s .a).ocr = s.tcnt + 1 ∧
      (cmpOf s .a).skip = false ∧ QuietUnit s (otherChannel .a) :=
  ⟨⟨by decide, by decide, by decide, by decide, by decide, by decide, by constructor <;> decide,
    by constructor <;> decide⟩, rfl, rfl, rfl, by decide, rfl, .inl (by decide)⟩

theorem witness_DisabledUnitStillDrivesItsPin :
    let s := { lateB with pin := ⟨.active, .inactive⟩, cmp := ⟨⟨5, .driveInactive, false, false⟩, CompareUnit.reset⟩ }
    s.fault = 0 ∧ s.running = true ∧ inFlight s .a = false ∧ (cmpOf s .a).ocr = s.tcnt + 1 ∧ (cmpOf s .a).skip = false ∧
      (cmpOf s .a).com = .driveInactive ∧ pinOf s .a = .active ∧ QuietUnit s (otherChannel .a) :=
  ⟨rfl, rfl, rfl, by decide, rfl, rfl, rfl, .inl (by decide)⟩

/-- The fitting branch (300 ticks) and the chaining branch (788 ticks), unit B at reset and idle at the same value. -/
theorem witness_ActiveStartMatch :
    SoleMatch (armedA 300 100 255) .a ∧ (chanOf (armedA 300 100 255) .a).phase = .activeStart ∧
    SoleMatch (armedA 788 788 255) .a ∧ (chanOf (armedA 788 788 255) .a).aHi = 2 :=
  ⟨⟨rfl, rfl, rfl, by decide, rfl, .inr (by decide)⟩, rfl, ⟨rfl, rfl, rfl, by decide, rfl, .inr (by decide)⟩, rfl⟩

/-- VE8 and VE9: 212 fits in the remainder, 213 overflows it. -/
theorem witness_InactiveStartMatch :
    SoleMatch (armedA 44 212 43) .a ∧ (chanOf (armedA 44 212 43) .a).phase = .inactiveStart ∧
    SoleMatch (armedA 44 213 43) .a ∧ 256 - (chanOf (armedA 44 213 43) .a).aLo.toNat = 212 :=
  ⟨⟨rfl, rfl, rfl, by decide, rfl, .inl (by decide)⟩, rfl, ⟨rfl, rfl, rfl, by decide, rfl, .inl (by decide)⟩, rfl⟩

/-- 256 ticks left fit, 257 chain. -/
theorem witness_InactiveContinueMatch :
    SoleMatch (lateA .inactiveContinue 256 0 255) .a ∧ SoleMatch (lateA .inactiveContinue 257 0 255) .a ∧
    (chanOf (lateA .inactiveContinue 257 0 255) .a).phase = .inactiveContinue :=
  ⟨⟨rfl, rfl, rfl, by decide, rfl, .inr (by decide)⟩, ⟨rfl, rfl, rfl, by decide, rfl, .inr (by decide)⟩, rfl⟩

theorem witness_InactiveFinishMatch :
    SoleMatch (lateA .inactiveFinish 100 144 143) .a ∧
    (chanOf (lateA .inactiveFinish 100 144 143) .a).phase = .inactiveFinish :=
  ⟨⟨rfl, rfl, rfl, by decide, rfl, .inl (by decide)⟩, rfl⟩

theorem witness_UnitAIsServicedFirst :
    lateB.fault = 0 ∧ lateB.running = true ∧ (cmpOf lateB .a).ocr = lateB.tcnt + 1 ∧ (cmpOf lateB .a).skip = false ∧
    (cmpOf lateB .b).ocr = lateB.tcnt + 1 ∧ (cmpOf lateB .b).skip = false := by decide

/-- The distances at their two ends. -/
theorem witness_CompareDistanceIsTheFirstMatch :
    compareDistance 7 7 = 256 ∧ compareDistance 7 8 = 1 ∧ compareDistance 255 0 = 1 ∧ compareDistance 0 255 = 255 := by
  decide

/-- 1, 256 and 257 ticks. -/
theorem witness_FitsMeansOneTimerCycle :
    1 ≤ 256 * (0 : U8).toNat + (1 : U8).toNat ∧ fits 1 0 = true ∧ fits 1 1 = false := by decide

theorem witness_NoDrawAtTheDefaultLead :
    fresh.cfg.minLead ≤ 1 ∧ (∃ t, exec (.arm .a 1 1) fresh = .next t) ∧ (cmpOf fresh .a).skip = false :=
  ⟨by decide, ⟨_, rfl⟩, rfl⟩

/-- VE1, at the ARM (k = 0). -/
theorem witness_PulseLastsExactlyItsDurations :
    fresh.fault = 0 ∧ fresh.cfg.minLead = 1 ∧ inFlight fresh .a = false ∧ inFlight fresh (otherChannel .a) = false ∧
    (1#16 : U16) ≠ 0 ∧ ∃ u, exec (.arm .a 1 1) fresh = .next u ∧ pinOf u .a = .active :=
  ⟨rfl, rfl, rfl, rfl, by decide, _, rfl, rfl⟩

theorem witness_PulseEmitsItsMatches :
    fresh.fault = 0 ∧ fresh.cfg.minLead = 1 ∧ inFlight fresh .b = false ∧ inFlight fresh (otherChannel .b) = false ∧
    (300#16 : U16) ≠ 0 ∧ (100#16 : U16) ≠ 0 ∧ ∃ u, exec (.arm .b 300 100) fresh = .next u :=
  ⟨rfl, rfl, rfl, rfl, by decide, by decide, _, rfl⟩

/-- Flight beginning at a host ARM, at a scheduler step, and ending at a tick. -/
theorem witness_FlightBeginsAtArmAndEndsAtFinish :
    (∃ t, exec (.arm .a 3 2) fresh = .next t ∧ inFlight fresh .a = false ∧ inFlight t .a = true) ∧
    (∃ t, exec .step { fresh with counter := 1 } = .next t ∧ inFlight t .a = true) ∧
    (∃ t, exec .tick lateB = .next t ∧ inFlight lateB .b = true ∧ inFlight t .b = false) :=
  ⟨⟨_, rfl, rfl, rfl⟩, ⟨_, rfl, rfl⟩, ⟨_, rfl, rfl, rfl⟩⟩

/-- Channel A finished and not armed again. -/
def finishedA : State := { fresh with chan := ⟨{ ChannelState.reset with finished := true }, ChannelState.reset⟩ }

/-- `finished` set by a tick, and cleared by a host ARM. -/
theorem witness_FinishedIsSetOncePerArm :
    (BlockInv lateB ∧ ∃ t, exec .tick lateB = .next t ∧ (chanOf lateB .b).finished = false ∧ (chanOf t .b).finished = true) ∧
    (BlockInv finishedA ∧ ∃ t, exec (.arm .a 3 2) finishedA = .next t ∧ (chanOf finishedA .a).finished = true ∧
      (chanOf t .a).finished = false) :=
  ⟨⟨lateB_inv, _, rfl, rfl, rfl⟩,
    ⟨⟨by decide, by decide, by decide, by decide, by decide, by decide, by constructor <;> decide,
      by constructor <;> decide⟩, _, rfl, rfl, rfl⟩⟩

/-- The three alternatives: another operation, a stopped timer, a tick away from the compare value. -/
theorem witness_ArmedChannelIsWrittenOnlyByItsMatch :
    inFlight (armedA 3 2 0) .a = true ∧ (∃ t, exec (.arm .a 5 5) (armedA 3 2 0) = .next t) ∧
    { armedA 3 2 2 with running := false }.running = false ∧ (∃ t, exec .tick { armedA 3 2 2 with running := false } = .next t) ∧
    (cmpOf (armedA 3 2 0) .a).ocr ≠ (armedA 3 2 0).tcnt + 1 ∧ (∃ t, exec .tick (armedA 3 2 0) = .next t) :=
  ⟨rfl, ⟨_, rfl⟩, rfl, ⟨_, rfl⟩, by decide, ⟨_, rfl⟩⟩

theorem witness_PollOnlyReports : fresh.fault = 0 ∧ { fresh with fault := 4 }.fault ≠ 0 := by decide

/-- Both signs, at the units next to zero, without and with separate pairs; and an ARM that faults. -/
theorem witness_InspectIssuesThePulse :
    fresh.fault = 0 ∧ fresh.sched = .inspect ∧ 0 < { fresh with counter := 1 }.counter.toInt ∧
    { fresh with counter := -1 }.counter.toInt < 0 ∧ fresh.cfg.perChannel = none ∧
    (State.initial pairConfig).cfg.perChannel = some (⟨7, 8⟩, ⟨9, 10⟩) ∧
    recordsOf .step { State.initial pairConfig with counter := -1 } = some [.armed .b 9 10, .pin .b .active] ∧
    recordsOf .step { armedA 3 2 0 with counter := -1 } = some [.fault 4 .b] := by decide

theorem witness_InspectIdlesAtZero : fresh.fault = 0 ∧ fresh.sched = .inspect ∧ fresh.counter = 0 := by decide

theorem witness_WaitPollsFinished :
    (nextOf (exec .step { lateA .inactiveFinish 2 5 4 with sched := .waitA })).map (fun t => t.sched) = some .waitA ∧
    (nextOf (exec .step { fresh with sched := .waitB, chan :=
      ⟨ChannelState.reset, { ChannelState.reset with finished := true }⟩ })).map (fun t => t.sched) = some .commitB := by decide

/-- Each commit at the unit next to zero and at zero. -/
theorem witness_CommitConsumesOneUnit :
    recordsOf .step { fresh with sched := .commitA, counter := 1 } = some [.counter 0] ∧
    recordsOf .step { fresh with sched := .commitA } = some [] ∧
    recordsOf .step { fresh with sched := .commitB, counter := -1 } = some [.counter 0] ∧
    recordsOf .step { fresh with sched := .commitB } = some [] := by decide

theorem witness_QuiescentStateStays : BlockInv fresh ∧ fresh.fault = 0 ∧ quiescent fresh = true :=
  ⟨fresh_inv, rfl, by decide⟩

theorem witness_OnlyFinishLiftsTheHold :
    held lateB = true ∧ ∃ t, exec .tick lateB = .next t ∧ held t = false := ⟨by decide, _, rfl, rfl⟩

theorem witness_OnlyStepMovesTheScheduler :
    (∃ t, exec .tick lateB = .next t) ∧ Instr.tick ≠ .step := ⟨⟨_, rfl⟩, by decide⟩

theorem witness_SampleAndTickCommute : (armedA 3 2 2).fault = 0 := rfl

/-- No unit and one unit. -/
theorem witness_PositiveCounterDrainsOnChannelA :
    BlockInv fresh ∧ BlockInv { fresh with counter := 1 } ∧ fresh.fault = 0 ∧ fresh.cfg.minLead = 1 ∧
    fresh.sched = .inspect ∧ inFlight fresh .a = false ∧ inFlight fresh .b = false ∧ fresh.counter.toInt = ((0 : Nat) : Int) ∧
    { fresh with counter := 1 }.counter.toInt = ((1 : Nat) : Int) :=
  ⟨fresh_inv, positive_inv, rfl, rfl, rfl, rfl, rfl, rfl, rfl⟩

theorem witness_NegativeCounterDrainsOnChannelB :
    BlockInv { fresh with counter := -1 } ∧ { fresh with counter := -1 }.fault = 0 ∧ fresh.cfg.minLead = 1 ∧
    fresh.sched = .inspect ∧ inFlight fresh .a = false ∧ inFlight fresh .b = false ∧
    { fresh with counter := -1 }.counter.toInt = -((1 : Nat) : Int) :=
  ⟨negative_inv, rfl, rfl, rfl, rfl, rfl, rfl⟩

theorem witness_EveryStepKeepsTheInvariant :
    let s := { armedA 3 2 2 with input := wordBytes 0x0200000000000000#64 }
    BlockInv s ∧ ∃ t, step s = .next t ∧ (chanOf t .a).phase = .inactiveFinish :=
  ⟨⟨by decide, by decide, by decide, by decide, by decide, by decide, by constructor <;> decide,
    by constructor <;> decide⟩, _, rfl, rfl⟩

theorem witness_LaunchEstablishesTheInvariant : launch testConfig = .next fresh := rfl

/-- Each of the four operations, from a state of the scheduler's own run. -/
theorem witness_SchedulerNeverOverlapsPulses :
    BlockInv lateB ∧ SchedExclusive lateB ∧ (∀ ch act inact, Instr.tick ≠ .arm ch act inact) ∧
    (∃ t, exec .tick lateB = .next t) ∧ (∃ t, exec (.sample 0b01) lateB = .next t) ∧
    (∃ t, exec (.poll .b) lateB = .next t) ∧ (∃ t, exec .step lateB = .next t) :=
  ⟨lateB_inv, rfl, by simp, ⟨_, rfl⟩, ⟨_, rfl⟩, ⟨_, rfl⟩, ⟨_, rfl⟩⟩

end Sys2Proof.Tests
end

section

namespace Sys2Proof.Machine

/-- The fetch of `step` when the delivered bytes begin with an operation (R7, R56). -/
theorem step_of_decodeBytes_operation {s : State} {i : Instr} {rest : List Byte}
    (h : decodeBytes s.input = .operation i rest) : step s = exec i { s with input := rest } := by
  simp only [step, h]

/-- Settles O8: the fetch passes the decoded operation to `exec`, and the decoder took one whole word for it. -/
theorem stepRunsTheDecodedOperation : Obligations.StepRunsTheDecodedOperation := by
  intro s i rest hdecode _
  exact ⟨step_of_decodeBytes_operation hdecode, decodeBytes_operation_length hdecode⟩

end Sys2Proof.Machine

end

section
/-! The frames of the operations: what each leaves as it was, inside the channel engine and outside it. -/

namespace Sys2Proof.Machine

/-! ### Inside and outside the engine -/

/-- The compare units, the channels, the pins and the shared timer's run flag and owner are in `t` as in `s`. -/
structure EngineKept (s t : State) : Prop where
  running : t.running = s.running
  owner : t.owner = s.owner
  cmp : t.cmp = s.cmp
  chan : t.chan = s.chan
  pin : t.pin = s.pin

/-- Everything that is neither the engine's nor the trace nor the draws is in `t` as in `s`. -/
structure OutsideKept (s t : State) : Prop where
  cfg : t.cfg = s.cfg
  hist : t.hist = s.hist
  acc : t.acc = s.acc
  counter : t.counter = s.counter
  sched : t.sched = s.sched
  fault : t.fault = s.fault
  input : t.input = s.input

theorem OutsideKept.refl (s : State) : OutsideKept s s := ⟨rfl, rfl, rfl, rfl, rfl, rfl, rfl⟩

theorem OutsideKept.trans {s t u : State} (h : OutsideKept s t) (h' : OutsideKept t u) : OutsideKept s u :=
  ⟨h'.cfg.trans h.cfg, h'.hist.trans h.hist, h'.acc.trans h.acc, h'.counter.trans h.counter,
    h'.sched.trans h.sched, h'.fault.trans h.fault, h'.input.trans h.input⟩

theorem UnitFrame.outsideKept {ch : Channel} {s t : State} (h : UnitFrame ch s t) : OutsideKept s t :=
  ⟨h.cfg, h.hist, h.acc, h.counter, h.sched, h.fault, h.input⟩

/-! ### SAMPLE -/

/-- A clockwise callback counts up below the limit, or does nothing (R109). -/
theorem cwCallback_cases (s : State) :
    cwCallback s = s ∨ (s.counter.toInt < s.cfg.counterLimit ∧ cwCallback s = setCounter (s.counter + 1) s) := by
  unfold cwCallback
  split
  · next h =>
    simp only [belowLimit, Bool.and_eq_true, decide_eq_true_eq] at h
    exact .inr ⟨h.2, rfl⟩
  · exact .inl rfl

/-- A counter-clockwise callback counts down above the negated limit, or does nothing (R110). -/
theorem ccwCallback_cases (s : State) :
    ccwCallback s = s ∨ (-(s.cfg.counterLimit : Int) < s.counter.toInt ∧ ccwCallback s = setCounter (s.counter - 1) s) := by
  unfold ccwCallback
  split
  · next h =>
    simp only [aboveLimit, Bool.and_eq_true, decide_eq_true_eq] at h
    exact .inr ⟨h.2, rfl⟩
  · exact .inl rfl

theorem applyThresholds_eq (s : State) : applyThresholds s = { s with
    acc := (applyThresholds s).acc, counter := (applyThresholds s).counter, trace := (applyThresholds s).trace } := by
  unfold applyThresholds
  split
  · rcases cwCallback_cases (emit .evCw s) with e | ⟨-, e⟩ <;> rw [e] <;> rfl
  · split
    · rcases ccwCallback_cases (emit .evCcw s) with e | ⟨-, e⟩ <;> rw [e] <;> rfl
    · rfl

/-- The decoder writes its history, its accumulator, the counter and the trace, and nothing else (R111). -/
theorem sampleEffect_eq (raw : U2) (s : State) : sampleEffect raw s = { s with
    hist := (sampleEffect raw s).hist, acc := (sampleEffect raw s).acc, counter := (sampleEffect raw s).counter,
    trace := (sampleEffect raw s).trace } := by
  unfold sampleEffect
  rw [applyThresholds_eq]
  unfold detentReset
  split <;> rfl

theorem sampleEffect_engineKept (raw : U2) (s : State) : EngineKept s (sampleEffect raw s) := by
  rw [sampleEffect_eq]
  exact ⟨rfl, rfl, rfl, rfl, rfl⟩

theorem sampleEffect_cfg (raw : U2) (s : State) : (sampleEffect raw s).cfg = s.cfg := by
  rw [sampleEffect_eq]

theorem sampleEffect_sched (raw : U2) (s : State) : (sampleEffect raw s).sched = s.sched := by
  rw [sampleEffect_eq]

theorem sampleEffect_fault (raw : U2) (s : State) : (sampleEffect raw s).fault = s.fault := by
  rw [sampleEffect_eq]

/-! ### TICK -/

/-- A property that counting, consuming a missed match and servicing a unit each keep is kept by a TICK (R122). -/
theorem tickEffect_keeps {P : State → Prop} (hadvance : ∀ s, P s → P (advanceTimer s))
    (hskip : ∀ ch s, P s → P (consumeSkip ch s)) (hservice : ∀ ch s, P s → P (serviceMatch ch s)) {s : State}
    (h : P s) : P (tickEffect s) := by
  have hif : ∀ (b : Bool) (ch : Channel) (u : State), P u → P (if b then serviceMatch ch u else u) := by
    intro b ch u hu
    cases b
    · exact hu
    · exact hservice ch u hu
  unfold tickEffect
  split
  · exact hif _ _ _ (hif _ _ _ (hskip _ _ (hskip _ _ (hadvance _ h))))
  · exact h

theorem tickEffect_outsideKept (s : State) : OutsideKept s (tickEffect s) :=
  tickEffect_keeps (P := OutsideKept s)
    (fun _ h => h.trans ⟨rfl, rfl, rfl, rfl, rfl, rfl, rfl⟩)
    (fun ch u h => h.trans (consumeSkip_frame ch u).outsideKept)
    (fun ch u h => h.trans (serviceMatch_frame ch u).outsideKept)
    (OutsideKept.refl s)

/-- With unit `ch` away from its compare value, only the other unit is looked at (R122, R124). -/
theorem serviceUnits_of_away {ch : Channel} {s : State} (h : atCompare s ch = false) :
    serviceUnits s =
      if matchesNow s (otherChannel ch) then serviceMatch (otherChannel ch) (consumeSkip (otherChannel ch) s)
      else consumeSkip (otherChannel ch) s := by
  have hm := matchesNow_of_away h
  unfold serviceUnits
  dsimp only
  cases ch with
  | a =>
    rw [consumeSkip_of_not (.inl h), hm]
    rfl
  | b =>
    have hf := consumeSkip_frame .a s
    have h' : atCompare (consumeSkip .a s) .b = false := by
      unfold atCompare
      rw [hf.tcnt, show cmpOf (consumeSkip .a s) .b = cmpOf s .b from hf.otherCmp]
      exact h
    rw [consumeSkip_of_not (.inl h'), hm]
    rfl

theorem inFlight_consumeSkip (ch : Channel) (s : State) : inFlight (consumeSkip ch s) ch = inFlight s ch := by
  unfold consumeSkip
  split
  · simp [inFlight, cmpOf]
  · rfl

theorem serviceUnits_frame_of_away {ch : Channel} {s : State} (h : atCompare s ch = false) :
    UnitFrame (otherChannel ch) s (serviceUnits s) := by
  have hskip := consumeSkip_frame (otherChannel ch) s
  rw [serviceUnits_of_away h]
  split
  · exact hskip.trans' (serviceMatch_frame ..) (inFlight_consumeSkip ..)
  · exact hskip

/-! ### ARM -/

/-- The ActiveStart handler does not read its unit's interrupt enable and does not write it (R130 to R132). -/
theorem setIe_activeDecide (ch : Channel) (s : State) (enable : Bool) :
    setCmp ch { cmpOf (activeDecide ch s) ch with ie := enable } (activeDecide ch s) =
      activeDecide ch (setCmp ch { cmpOf s ch with ie := enable } s) := by
  unfold activeDecide
  rw [show chanOf (setCmp ch { cmpOf s ch with ie := enable } s) ch = chanOf s ch from rfl]
  split
  · rw [activeFit_eq, activeFit_eq]; cases ch <;> rfl
  · rw [activeChain_eq, activeChain_eq]; cases ch <;> rfl

/-- An ARM's writes before its first ActiveStart decision, with the interrupt already enabled (R127). -/
def armedState (ch : Channel) (act inact : U16) (s : State) : State :=
  { s with
    trace := s.trace ++ [.armed ch act inact] ++ (if pinOf s ch = .active then [] else [.pin ch .active])
    chan := put s.chan ch (armedChannel act inact)
    cmp := put s.cmp ch ⟨(cmpOf s ch).ocr, .hold, true, false⟩
    pin := put s.pin ch .active
    tcnt := 0
    running := true
    owner := ownerOf ch }

theorem armEffect_eq (ch : Channel) (act inact : U16) (s : State) :
    armEffect ch act inact s = activeDecide ch (armedState ch act inact s) := by
  unfold armEffect
  dsimp only
  rw [setIe_activeDecide, setPin_eq]
  cases ch <;> rfl

theorem inFlight_armedState (ch : Channel) (act inact : U16) (s : State) :
    inFlight (armedState ch act inact s) ch = true := by
  simp [inFlight, cmpOf, armedState]

/-- After the armed state, an ARM does what a handler does (R130, R194). -/
theorem armEffect_frame (ch : Channel) (act inact : U16) (s : State) :
    UnitFrame ch (armedState ch act inact s) (armEffect ch act inact s) := by
  rw [armEffect_eq]
  exact handler_frame .activeStart ch _ (inFlight_armedState ..)

theorem armEffect_outsideKept (ch : Channel) (act inact : U16) (s : State) :
    OutsideKept s (armEffect ch act inact s) := by
  have harmed : OutsideKept s (armedState ch act inact s) := ⟨rfl, rfl, rfl, rfl, rfl, rfl, rfl⟩
  exact harmed.trans (armEffect_frame ch act inact s).outsideKept

/-- An ARM with a channel in flight writes no channel: it faults (R184, R185). -/
theorem armThen_of_inFlight {ch : Channel} {s : State} (h : inFlight s ch = true) (c : Channel) (act inact : U16)
    (after : State → State) : ∃ code, armThen c act inact after s = raiseFault code c s := by
  rcases armThen_cases c act inact after s with ⟨hnone, -⟩ | ⟨code, -, e⟩
  · rw [armFault_none_iff] at hnone
    obtain ⟨hc, ho, -, -⟩ := hnone
    rcases channel_eq_or_other ch c with rfl | rfl
    · rw [h] at hc; cases hc
    · rw [h] at ho; cases ho
  · exact ⟨code, e⟩

/-! ### STEP -/

/-- A scheduler step issues a pulse at INSPECT, moves the control state alone, or commits one unit of the counter (R161 to
R169). -/
theorem schedEffect_cases (s : State) :
    (∃ ch wait, s.sched = .inspect ∧ schedEffect s = issuePulse ch wait s) ∨
    (∃ c, schedEffect s = setSched c s) ∨
    (s.sched = .commitA ∧ 0 < s.counter.toInt ∧
      schedEffect s = setSched .inspect (setCounter (s.counter - 1) s)) ∨
    (s.sched = .commitB ∧ s.counter.toInt < 0 ∧
      schedEffect s = setSched .inspect (setCounter (s.counter + 1) s)) := by
  have hwait : ∀ ch next, ∃ c, schedWait ch next s = setSched c s := by
    intro ch next
    unfold schedWait
    split
    · exact ⟨next, rfl⟩
    · exact ⟨s.sched, rfl⟩
  unfold schedEffect
  cases hs : s.sched with
  | inspect =>
    dsimp only [schedInspect]
    split
    · exact .inl ⟨.a, .waitA, rfl, rfl⟩
    · split
      · exact .inl ⟨.b, .waitB, rfl, rfl⟩
      · exact .inr (.inl ⟨s.sched, rfl⟩)
  | waitA => exact .inr (.inl (hwait ..))
  | waitB => exact .inr (.inl (hwait ..))
  | commitA =>
    dsimp only [schedCommitA]
    split
    · next h => exact .inr (.inr (.inl ⟨rfl, h, rfl⟩))
    · exact .inr (.inl ⟨.inspect, rfl⟩)
  | commitB =>
    dsimp only [schedCommitB]
    split
    · next h => exact .inr (.inr (.inr ⟨rfl, h, rfl⟩))
    · exact .inr (.inl ⟨.inspect, rfl⟩)

/-! ### What only some operations write -/

/-- Settles O53: the decoder and the engine leave the control state as it was, and an ARM's fault writes only `fault`. -/
theorem onlyStepMovesTheScheduler : Obligations.OnlyStepMovesTheScheduler := by
  intro i s t hexec hstep
  obtain ⟨-, rfl⟩ := (exec_next_iff i s t).1 hexec
  cases i with
  | sample raw => exact sampleEffect_sched raw s
  | tick => exact (tickEffect_outsideKept s).sched
  | arm ch act inact =>
    rcases armThen_cases ch act inact id s with ⟨-, e⟩ | ⟨code, -, e⟩ <;> rw [effectOf, e]
    · exact (armEffect_outsideKept ch act inact s).sched
    · rfl
  | poll ch => rfl
  | step => exact absurd rfl hstep

/-- With a channel in flight a scheduler step leaves the engine as it was: its ARM faults (R184, R185). -/
theorem schedEffect_engineKept {ch : Channel} {s : State} (h : inFlight s ch = true) : EngineKept s (schedEffect s) := by
  rcases schedEffect_cases s with ⟨c, wait, -, e⟩ | ⟨c, e⟩ | ⟨-, -, e⟩ | ⟨-, -, e⟩
  · obtain ⟨code, e'⟩ := armThen_of_inFlight h c (requestedActive s.cfg c) (requestedInactive s.cfg c) (setSched wait)
    rw [e, issuePulse, e']
    exact ⟨rfl, rfl, rfl, rfl, rfl⟩
  all_goals rw [e]; exact ⟨rfl, rfl, rfl, rfl, rfl⟩

/-- With a channel in flight only a TICK writes the engine (R37). -/
theorem effectOf_engineKept {ch : Channel} {s : State} (h : inFlight s ch = true) {i : Instr} (hi : i ≠ .tick) :
    EngineKept s (effectOf i s) := by
  cases i with
  | sample raw => exact sampleEffect_engineKept raw s
  | tick => exact absurd rfl hi
  | arm c act inact =>
    obtain ⟨code, e⟩ := armThen_of_inFlight h c act inact id
    rw [effectOf, e]
    exact ⟨rfl, rfl, rfl, rfl, rfl⟩
  | poll c => exact ⟨rfl, rfl, rfl, rfl, rfl⟩
  | step => exact schedEffect_engineKept h

/-- A TICK away from unit `ch`'s compare value is the other unit's alone. -/
theorem tickEffect_away {s : State} {ch : Channel} (h : s.running = false ∨ (cmpOf s ch).ocr ≠ s.tcnt + 1) :
    chanOf (tickEffect s) ch = chanOf s ch ∧ cmpOf (tickEffect s) ch = cmpOf s ch ∧
      pinOf (tickEffect s) ch = pinOf s ch := by
  cases hr : s.running with
  | false => rw [tick_stopped hr]; exact ⟨rfl, rfl, rfl⟩
  | true =>
    have hocr : (cmpOf s ch).ocr ≠ s.tcnt + 1 := h.resolve_left (by simp [hr])
    have haway : atCompare (advanceTimer s) ch = false := beq_eq_false_iff_ne.2 hocr.symm
    have hf := serviceUnits_frame_of_away haway
    rw [tick_running hr]
    have hchan := hf.otherChan
    have hcmp := hf.otherCmp
    have hpin := hf.otherPin
    rw [otherChannel_other] at hchan hcmp hpin
    exact ⟨hchan, hcmp, hpin⟩

/-- Settles O45: any operation but a TICK keeps the whole engine, and a TICK away from the compare value, the channel. -/
theorem armedChannelIsWrittenOnlyByItsMatch : Obligations.ArmedChannelIsWrittenOnlyByItsMatch := by
  intro i s t ch hflight hexec hcase
  obtain ⟨-, rfl⟩ := (exec_next_iff i s t).1 hexec
  by_cases hi : i = .tick
  · subst hi
    exact tickEffect_away (hcase.resolve_left (· rfl))
  · have hk := effectOf_engineKept hflight hi
    exact ⟨by rw [chanOf, hk.chan, chanOf], by rw [cmpOf, hk.cmp, cmpOf], by rw [pinOf, hk.pin, pinOf]⟩

end Sys2Proof.Machine
end

section
/-! The counter's moves and its bounds (R25, R43 item 4). -/

namespace Sys2Proof.Machine

/-- The counter stays, rises by one from below its limit, or falls by one from above the negated limit. -/
def CounterMove (s t : State) : Prop :=
  t.counter = s.counter ∨
  (s.counter.toInt < s.cfg.counterLimit ∧ t.counter = s.counter + 1) ∨
  (-(s.cfg.counterLimit : Int) < s.counter.toInt ∧ t.counter = s.counter - 1)

theorem applyThresholds_counterMove (s : State) : CounterMove s (applyThresholds s) := by
  unfold applyThresholds
  split
  · rcases cwCallback_cases (emit .evCw s) with e | ⟨hlt, e⟩ <;> rw [e]
    · exact .inl rfl
    · exact .inr (.inl ⟨hlt, rfl⟩)
  · split
    · rcases ccwCallback_cases (emit .evCcw s) with e | ⟨hlt, e⟩ <;> rw [e]
      · exact .inl rfl
      · exact .inr (.inr ⟨hlt, rfl⟩)
    · exact .inl rfl

theorem detentReset_counter (s : State) : (detentReset s).counter = s.counter := by
  unfold detentReset
  split <;> rfl

theorem sampleEffect_counterMove (raw : U2) (s : State) : CounterMove s (sampleEffect raw s) := by
  unfold CounterMove sampleEffect
  rw [detentReset_counter]
  exact applyThresholds_counterMove (accumulate (shiftHistory (normalise raw) s))

theorem armThen_counter (ch : Channel) (act inact : U16) {after : State → State} (s : State)
    (hafter : ∀ u, (after u).counter = u.counter) : (armThen ch act inact after s).counter = s.counter := by
  rcases armThen_cases ch act inact after s with ⟨-, e⟩ | ⟨code, -, e⟩ <;> rw [e]
  · exact (hafter _).trans (armEffect_outsideKept ch act inact s).counter
  · rfl

/-- A commit moves the counter towards zero, so it needs no test of the limit (R165, R168). -/
theorem schedEffect_counterMove (s : State) : CounterMove s (schedEffect s) := by
  rcases schedEffect_cases s with ⟨ch, wait, -, e⟩ | ⟨c, e⟩ | ⟨-, hpos, e⟩ | ⟨-, hneg, e⟩ <;> rw [e]
  · exact .inl (armThen_counter _ _ _ s fun _ => rfl)
  · exact .inl rfl
  · exact .inr (.inr ⟨by omega, rfl⟩)
  · exact .inr (.inl ⟨by omega, rfl⟩)

theorem effectOf_counterMove (i : Instr) (s : State) : CounterMove s (effectOf i s) := by
  cases i with
  | sample raw => exact sampleEffect_counterMove raw s
  | tick => exact .inl (tickEffect_outsideKept s).counter
  | arm ch act inact => exact .inl (armThen_counter ch act inact s fun _ => rfl)
  | poll ch => exact .inl rfl
  | step => exact schedEffect_counterMove s

theorem toInt_add_one {c : I8} (h : c.toInt < 127) : (c + 1).toInt = c.toInt + 1 := by
  have hlow := BitVec.le_toInt c
  rw [BitVec.toInt_add, show (1 : I8).toInt = 1 from rfl]
  exact Int.bmod_eq_of_le (by omega) (by omega)

theorem toInt_sub_one {c : I8} (h : -127 < c.toInt) : (c - 1).toInt = c.toInt - 1 := by
  have hhigh := BitVec.toInt_lt (x := c)
  rw [BitVec.toInt_sub, show (1 : I8).toInt = 1 from rfl]
  exact Int.bmod_eq_of_le (by omega) (by omega)

theorem counterLimit_le {c : Config} (h : c.wellFormed = true) : c.counterLimit ≤ 127 := by
  simp only [Config.wellFormed, Bool.and_eq_true, decide_eq_true_eq] at h
  omega

/-- A move from within the limits, with a limit an i8 can hold, stays within them and is one step at most (R25). -/
theorem CounterMove.bounds {s t : State} (h : CounterMove s t) (hlimit : s.cfg.counterLimit ≤ 127)
    (hlow : -(s.cfg.counterLimit : Int) ≤ s.counter.toInt) (hhigh : s.counter.toInt ≤ s.cfg.counterLimit) :
    -(s.cfg.counterLimit : Int) ≤ t.counter.toInt ∧ t.counter.toInt ≤ s.cfg.counterLimit ∧
      -1 ≤ t.counter.toInt - s.counter.toInt ∧ t.counter.toInt - s.counter.toInt ≤ 1 := by
  rcases h with e | ⟨hlt, e⟩ | ⟨hlt, e⟩ <;> rw [e]
  · omega
  · rw [toInt_add_one (by omega)]; omega
  · rw [toInt_sub_one (by omega)]; omega

/-- Settles O25: each operation's counter move is clamped by the limit. -/
theorem counterMovesByOneWithinItsBounds : Obligations.CounterMovesByOneWithinItsBounds := by
  intro i s t hcfg hlow hhigh hexec
  obtain ⟨-, rfl⟩ := (exec_next_iff i s t).1 hexec
  exact (effectOf_counterMove i s).bounds (counterLimit_le hcfg) hlow hhigh

end Sys2Proof.Machine
end

section
/-! The invariant in two halves: what stands outside the engine, and the engine channel by channel (R43 items 1 to 8). -/

namespace Sys2Proof.Machine

/-! ### The halves of `BlockInv` -/

/-- The part of `BlockInv` about the parameters, the decoder, the counter and the fault code. -/
structure OutsideInv (s : State) : Prop where
  parameters : s.cfg.wellFormed = true
  accBound : -3 ≤ s.acc.toInt ∧ s.acc.toInt ≤ 3
  counterBound : -(s.cfg.counterLimit : Int) ≤ s.counter.toInt ∧ s.counter.toInt ≤ (s.cfg.counterLimit : Int)
  faultCode : s.fault.toNat ≤ 4

/-- The part of `BlockInv` about the channels and the shared timer, alike for both channels. -/
structure EngineInv (s : State) : Prop where
  exclusive : ∀ ch, inFlight s ch = true → inFlight s (otherChannel ch) = false
  timerUsed : s.running = true → ∃ ch, inFlight s ch = true
  channel : ∀ ch, ChannelInv s ch

theorem BlockInv.outsideInv {s : State} (h : BlockInv s) : OutsideInv s :=
  ⟨h.parameters, h.accBound, h.counterBound, h.faultCode⟩

theorem BlockInv.engineInv {s : State} (h : BlockInv s) : EngineInv s where
  exclusive ch hf := by
    refine Bool.eq_false_iff.2 fun ho => ?_
    cases ch with
    | a => exact h.exclusive ⟨hf, ho⟩
    | b => exact h.exclusive ⟨ho, hf⟩
  timerUsed hr := (h.timerUsed hr).elim (⟨.a, ·⟩) (⟨.b, ·⟩)
  channel
    | .a => h.chanA
    | .b => h.chanB

theorem BlockInv.of_halves {s : State} (ho : OutsideInv s) (he : EngineInv s) : BlockInv s where
  parameters := ho.parameters
  exclusive hab := Bool.false_ne_true ((he.exclusive .a hab.1).symm.trans hab.2)
  timerUsed hr := by
    obtain ⟨ch, hf⟩ := he.timerUsed hr
    cases ch with
    | a => exact .inl hf
    | b => exact .inr hf
  accBound := ho.accBound
  counterBound := ho.counterBound
  faultCode := ho.faultCode
  chanA := he.channel .a
  chanB := he.channel .b

/-! ### One channel's invariant -/

/-- A channel in flight, as far as its phase does not matter (R43 items 2 and 8). -/
structure Flying (s : State) (ch : Channel) : Prop where
  enabled : inFlight s ch = true
  running : s.running = true
  owner : s.owner = ownerOf ch
  unfinished : (chanOf s ch).finished = false

/-- What `ChannelInv` says of a channel in flight phase by phase: of its fields `c`, its compare value `v` and action `com`,
and its pin's level `p`. -/
def PhaseInv (c : ChannelState) (v : U8) (com : OutputAction) (p : PinLevel) : Prop :=
  match c.phase with
  | .activeStart =>
    p = .active ∧ v = 0 ∧ com = .hold ∧ 1 ≤ 256 * c.aHi.toNat + c.aLo.toNat ∧ 1 ≤ c.inact.toNat
  | .inactiveStart => p = .active ∧ v = c.aLo ∧ com = .driveInactive ∧ 1 ≤ c.inact.toNat
  | .inactiveContinue => p = .inactive ∧ v = 0 ∧ 1 ≤ c.inact.toNat
  | .inactiveFinish => p = .inactive

/-- `PhaseInv` of channel `ch` in `s`. -/
abbrev PhaseInvAt (s : State) (ch : Channel) : Prop :=
  PhaseInv (chanOf s ch) (cmpOf s ch).ocr (cmpOf s ch).com (pinOf s ch)

theorem ChannelInv.flying {s : State} {ch : Channel} (h : ChannelInv s ch) (hf : inFlight s ch = true) :
    Flying s ch where
  enabled := hf
  running := (h.owned hf).1
  owner := (h.owned hf).2
  unfinished := by
    by_contra hfin
    rw [h.finishedIdle (Bool.eq_true_of_not_eq_false hfin)] at hf
    exact Bool.false_ne_true hf

theorem ChannelInv.phaseInv {s : State} {ch : Channel} (h : ChannelInv s ch) (hf : inFlight s ch = true) :
    PhaseInvAt s ch := by
  unfold PhaseInvAt PhaseInv
  cases hp : (chanOf s ch).phase with
  | activeStart =>
    obtain ⟨hocr, hcom⟩ := h.chaining hf hp
    exact ⟨h.pinActive hf (.inl hp), hocr, hcom, h.activeLeft hf hp, h.inactiveLeft hf (by simp [hp])⟩
  | inactiveStart =>
    obtain ⟨hocr, hcom⟩ := h.ending hf hp
    exact ⟨h.pinActive hf (.inr hp), hocr, hcom, h.inactiveLeft hf (by simp [hp])⟩
  | inactiveContinue =>
    exact ⟨h.pinInactive hf (.inl hp), h.continuing hf hp, h.inactiveLeft hf (by simp [hp])⟩
  | inactiveFinish => exact h.pinInactive hf (.inr hp)

theorem Flying.channelInv {s : State} {ch : Channel} (h : Flying s ch) (hp : PhaseInvAt s ch) : ChannelInv s ch where
  owned _ := ⟨h.running, h.owner⟩
  pinActive _ hphase := by
    rcases hphase with hphase | hphase <;> rw [PhaseInvAt, PhaseInv, hphase] at hp <;> exact hp.1
  pinInactive _ hphase := by
    rcases hphase with hphase | hphase <;> rw [PhaseInvAt, PhaseInv, hphase] at hp
    · exact hp.1
    · exact hp
  chaining _ hphase := by
    rw [PhaseInvAt, PhaseInv, hphase] at hp
    obtain ⟨-, hocr, hcom, -, -⟩ := hp
    exact ⟨hocr, hcom⟩
  finishedIdle hfin := absurd (h.unfinished.symm.trans hfin) Bool.false_ne_true
  ending _ hphase := by
    rw [PhaseInvAt, PhaseInv, hphase] at hp
    obtain ⟨-, hocr, hcom, -⟩ := hp
    exact ⟨hocr, hcom⟩
  continuing _ hphase := by
    rw [PhaseInvAt, PhaseInv, hphase] at hp
    obtain ⟨-, hocr, -⟩ := hp
    exact hocr
  activeLeft _ hphase := by
    rw [PhaseInvAt, PhaseInv, hphase] at hp
    obtain ⟨-, -, -, hleft, -⟩ := hp
    exact hleft
  inactiveLeft _ hne := by
    unfold PhaseInvAt PhaseInv at hp
    cases hphase : (chanOf s ch).phase <;> rw [hphase] at hp
    case inactiveFinish => exact absurd hphase hne
    case activeStart => obtain ⟨-, -, -, -, hinact⟩ := hp; exact hinact
    case inactiveStart => obtain ⟨-, -, -, hinact⟩ := hp; exact hinact
    case inactiveContinue => obtain ⟨-, -, hinact⟩ := hp; exact hinact
  idlePin hidle := absurd (hidle.symm.trans h.enabled) Bool.false_ne_true

theorem channelInv_of_idle {s : State} {ch : Channel} (hf : inFlight s ch = false) (hp : pinOf s ch = .inactive) :
    ChannelInv s ch := by
  constructor <;> simp [hf, hp]

/-- A channel's invariant does not read its unit's `skip`. -/
theorem ChannelInv.congr {s t : State} {ch : Channel} (h : ChannelInv s ch)
    (hcmp : ∃ skip, cmpOf t ch = { cmpOf s ch with skip := skip }) (hchan : chanOf t ch = chanOf s ch)
    (hpin : pinOf t ch = pinOf s ch)
    (hrunning : t.running = s.running) (howner : t.owner = s.owner) : ChannelInv t ch := by
  obtain ⟨skip, hcmp⟩ := hcmp
  have hfl : inFlight t ch = inFlight s ch := by rw [inFlight, hcmp, inFlight]
  cases hf : inFlight s ch with
  | false => exact channelInv_of_idle (hfl.trans hf) (hpin.trans (h.idlePin hf))
  | true =>
    have hfly := h.flying hf
    have hfly' : Flying t ch := ⟨hfl.trans hf, hrunning.trans hfly.running, howner.trans hfly.owner,
      hchan ▸ hfly.unfinished⟩
    refine hfly'.channelInv ?_
    rw [PhaseInvAt, hchan, hcmp, hpin]
    exact h.phaseInv hf

/-! ### Reset -/

theorem initial_channelInv (c : Config) (ch : Channel) : ChannelInv (State.initial c) ch :=
  channelInv_of_idle (by cases ch <;> rfl) (by cases ch <;> rfl)

theorem initial_blockInv {c : Config} (h : c.wellFormed = true) : BlockInv (State.initial c) where
  parameters := h
  exclusive hab := Bool.false_ne_true hab.1
  timerUsed hr := absurd hr Bool.false_ne_true
  accBound := by
    have hzero : (State.initial c).acc.toInt = 0 := rfl
    omega
  counterBound := by
    have hzero : (State.initial c).counter.toInt = 0 := rfl
    omega
  faultCode := Nat.zero_le 4
  chanA := initial_channelInv c .a
  chanB := initial_channelInv c .b

theorem initial_schedExclusive (c : Config) : SchedExclusive (State.initial c) := ⟨rfl, rfl⟩

/-- The free values of log entry 6 are within R9's ranges: their types bound them. -/
theorem reference_wellFormed : Config.reference.wellFormed = true := by
  simp [Config.wellFormed, Config.reference, Durations.wellFormed]

/-- Settles O58: a launch answers the reset state of a well-formed configuration, and so is `State.reset`. -/
theorem launchEstablishesTheInvariant : Obligations.LaunchEstablishesTheInvariant := by
  refine ⟨fun c s h => ?_, initial_blockInv reference_wellFormed, initial_schedExclusive _⟩
  unfold launch at h
  split at h
  · next hc =>
    cases h
    exact ⟨initial_blockInv hc, initial_schedExclusive c⟩
  · cases h

/-! ### The handlers keep their channel's invariant -/

@[simp] theorem inFlight_programmed (m : State) (ch : Channel) (c : ChannelState) (v : U8) (com : OutputAction) :
    inFlight (programmed m ch c v com) ch = inFlight m ch := by
  simp [inFlight, cmpOf, programmed]

@[simp] theorem chanOf_programmed (m : State) (ch : Channel) (c : ChannelState) (v : U8) (com : OutputAction) :
    chanOf (programmed m ch c v com) ch = c :=
  pick_put_same ..

@[simp] theorem inFlight_programmedForWrap (m : State) (ch : Channel) (c : ChannelState) :
    inFlight (programmedForWrap m ch c) ch = inFlight m ch := by
  simp [inFlight, cmpOf, programmedForWrap]

@[simp] theorem chanOf_programmedForWrap (m : State) (ch : Channel) (c : ChannelState) :
    chanOf (programmedForWrap m ch c) ch = c :=
  pick_put_same ..

/-- A flying channel whose finishing compare is programmed to fit its new phase has the invariant (R131, R134, R136). -/
theorem Flying.channelInv_programmed {m : State} {ch : Channel} (h : Flying m ch) {c : ChannelState} {v : U8}
    {com : OutputAction} (hfin : c.finished = (chanOf m ch).finished) (hp : PhaseInv c v com (pinOf m ch)) :
    ChannelInv (programmed m ch c v com) ch := by
  refine Flying.channelInv ⟨?_, h.running, h.owner, ?_⟩ ?_
  · rw [inFlight_programmed]; exact h.enabled
  · rw [chanOf_programmed, hfin]; exact h.unfinished
  · rw [PhaseInvAt, chanOf_programmed, cmpOf, programmed, pick_put_same]; exact hp

/-- The same for a compare programmed for the wrap (R132, R135, R136). -/
theorem Flying.channelInv_programmedForWrap {m : State} {ch : Channel} (h : Flying m ch) {c : ChannelState}
    (hfin : c.finished = (chanOf m ch).finished) (hp : PhaseInv c 0 (cmpOf m ch).com (pinOf m ch)) :
    ChannelInv (programmedForWrap m ch c) ch := by
  refine Flying.channelInv ⟨?_, h.running, h.owner, ?_⟩ ?_
  · rw [inFlight_programmedForWrap]; exact h.enabled
  · rw [chanOf_programmedForWrap, hfin]; exact h.unfinished
  · rw [PhaseInvAt, chanOf_programmedForWrap, cmpOf, programmedForWrap, pick_put_same]; exact hp

/-- Where the remaining active duration does not fit, the next 256 ticks leave some of it (R132). -/
theorem activeDecide_channelInv {m : State} {ch : Channel} (h : Flying m ch) (hphase : (chanOf m ch).phase = .activeStart)
    (hpin : pinOf m ch = .active) (hcom : (cmpOf m ch).com = .hold)
    (hinact : 1 ≤ (chanOf m ch).inact.toNat) :
    ChannelInv (activeDecide ch m) ch := by
  unfold activeDecide
  split
  · rw [activeFit_eq]
    exact h.channelInv_programmed rfl ⟨hpin, rfl, rfl, hinact⟩
  · next hfits =>
    rw [activeChain_eq]
    refine h.channelInv_programmedForWrap rfl ?_
    rw [fits_iff] at hfits
    have hmore : 1 ≤ 256 * ((chanOf m ch).aHi - 1).toNat + (chanOf m ch).aLo.toNat := by
      have := (chanOf m ch).aHi.isLt
      have := (chanOf m ch).aLo.isLt
      rw [BitVec.toNat_sub, show (1 : U8).toNat = 1 from rfl]
      omega
    simp only [PhaseInv, hphase]
    exact ⟨hpin, trivial, hcom, hmore, hinact⟩

/-- Where the inactive duration reaches past the wrap, some of it is left there (R135). -/
theorem inactiveStart_channelInv {m : State} {ch : Channel} (h : Flying m ch) (hpin : pinOf m ch = .inactive) :
    ChannelInv (inactiveStart ch m) ch := by
  unfold inactiveStart
  split
  · rw [inactiveFit_eq]
    exact h.channelInv_programmed rfl hpin
  · next hover =>
    rw [inactiveOver_eq]
    refine h.channelInv_programmedForWrap rfl ⟨hpin, rfl, ?_⟩
    have := (chanOf m ch).inact.isLt
    dsimp only
    rw [BitVec.toNat_sub, BitVec.toNat_ofNat]
    unfold ticksToWrap at hover ⊢
    omega

/-- Where the remaining inactive duration does not fit, the next 256 ticks leave some of it (R136). -/
theorem inactiveContinue_channelInv {m : State} {ch : Channel} (h : Flying m ch)
    (hphase : (chanOf m ch).phase = .inactiveContinue) (hpin : pinOf m ch = .inactive) :
    ChannelInv (inactiveContinue ch m) ch := by
  rw [inactiveContinue_eq]
  split
  · exact h.channelInv_programmed rfl hpin
  · next hfits =>
    refine h.channelInv_programmedForWrap rfl ?_
    rw [fits_duration_iff] at hfits
    have hmore : 1 ≤ ((chanOf m ch).inact - 256).toNat := by
      have := (chanOf m ch).inact.isLt
      rw [BitVec.toNat_sub, show (256 : U16).toNat = 256 from rfl]
      omega
    simp only [PhaseInv, hphase]
    exact ⟨hpin, trivial, hmore⟩

theorem inFlight_inactiveFinish (ch : Channel) (m : State) : inFlight (inactiveFinish ch m) ch = false := by
  rw [inactiveFinish_eq]
  simp [inFlight, cmpOf]

theorem inactiveFinish_channelInv {m : State} {ch : Channel} (hpin : pinOf m ch = .inactive) :
    ChannelInv (inactiveFinish ch m) ch := by
  refine channelInv_of_idle (inFlight_inactiveFinish ch m) ?_
  rw [inactiveFinish_eq]
  exact hpin

/-! ### A match keeps the engine's invariant -/

/-- A matching unit with its interrupt enabled runs its phase's handler after the action and the record (R122, R125). -/
theorem serviceMatch_of_inFlight {ch : Channel} {s : State} (h : inFlight s ch = true) :
    serviceMatch ch s = handler (chanOf s ch).phase ch
      (emit (.compareMatch (chanOf s ch).phase ch s.tcnt) (outputAction ch s)) := by
  have hf : inFlight (outputAction ch s) ch = true := by rw [outputAction_eq]; exact h
  rw [serviceMatch, interruptOnMatch, if_pos hf, outputAction_eq]
  rfl

theorem pinOf_outputAction (ch : Channel) (s : State) :
    pinOf (outputAction ch s) ch = if (cmpOf s ch).com = .driveInactive then .inactive else pinOf s ch := by
  rw [outputAction_eq, pinOf]
  dsimp only
  split
  · exact pick_put_same ..
  · rfl

theorem outputAction_flying {ch : Channel} {s : State} (h : Flying s ch) (r : TraceRecord) :
    Flying (emit r (outputAction ch s)) ch := by
  rw [outputAction_eq]
  exact ⟨h.enabled, h.running, h.owner, h.unfinished⟩

theorem serviceMatch_channelInv {ch : Channel} {s : State} (h : ChannelInv s ch) (hf : inFlight s ch = true) :
    ChannelInv (serviceMatch ch s) ch := by
  have hp := h.phaseInv hf
  have hpin := pinOf_outputAction ch s
  have hchan : chanOf (outputAction ch s) ch = chanOf s ch := by rw [chanOf, outputAction_chan, chanOf]
  have hcmp : cmpOf (outputAction ch s) ch = cmpOf s ch := by rw [cmpOf, outputAction_cmp, cmpOf]
  rw [serviceMatch_of_inFlight hf]
  have hfly := outputAction_flying (h.flying hf) (.compareMatch (chanOf s ch).phase ch s.tcnt)
  unfold PhaseInvAt PhaseInv at hp
  cases hphase : (chanOf s ch).phase <;> rw [hphase] at hp hfly
  case activeStart =>
    obtain ⟨hactive, -, hhold, -, hinact⟩ := hp
    rw [hhold, if_neg (by decide)] at hpin
    rw [← hchan] at hphase hinact
    exact activeDecide_channelInv hfly hphase (hpin.trans hactive) (by rw [← hcmp] at hhold; exact hhold) hinact
  case inactiveStart =>
    obtain ⟨-, -, hdrive, -⟩ := hp
    rw [if_pos hdrive] at hpin
    exact inactiveStart_channelInv hfly hpin
  case inactiveContinue =>
    obtain ⟨hinactive, -, -⟩ := hp
    rw [hinactive, ite_self] at hpin
    rw [← hchan] at hphase
    exact inactiveContinue_channelInv hfly hphase hpin
  case inactiveFinish =>
    rw [hp, ite_self] at hpin
    exact inactiveFinish_channelInv hpin

/-- A handler leaves its channel in flight, or stops the timer its channel owns (R138). -/
theorem handler_inFlight_or_stopped (p : Phase) {ch : Channel} {m : State} (h : Flying m ch) :
    inFlight (handler p ch m) ch = true ∨ (handler p ch m).running = false := by
  have henabled := h.enabled
  cases p with
  | activeStart =>
    rw [handler, activeDecide, activeFit_eq, activeChain_eq]
    split <;> simp [henabled]
  | inactiveStart =>
    rw [handler, inactiveStart, inactiveFit_eq, inactiveOver_eq]
    split <;> simp [henabled]
  | inactiveContinue =>
    rw [handler, inactiveContinue_eq]
    split <;> simp [henabled]
  | inactiveFinish =>
    rw [handler, inactiveFinish_eq]
    exact .inr (if_pos h.owner)

/-- The engine's invariant from the channel at work, the other one being idle. -/
theorem EngineInv.of_otherIdle {s : State} {ch : Channel} (hch : ChannelInv s ch)
    (hidle : inFlight s (otherChannel ch) = false) (hpin : pinOf s (otherChannel ch) = .inactive)
    (hused : s.running = true → inFlight s ch = true) : EngineInv s := by
  refine ⟨fun c hc => ?_, fun hr => ⟨ch, hused hr⟩, fun c => ?_⟩ <;> rcases channel_eq_or_other c ch with rfl | rfl
  · exact hidle
  · rw [hidle] at hc; cases hc
  · exact hch
  · exact channelInv_of_idle hidle hpin

/-- Servicing a unit keeps the engine's invariant: an idle unit does nothing, and the other channel of one in flight is
idle (R125, R146). -/
theorem serviceMatch_engineInv (ch : Channel) (s : State) (h : EngineInv s) : EngineInv (serviceMatch ch s) := by
  have hch := h.channel ch
  cases hf : inFlight s ch with
  | false => rw [serviceMatch_idle hf (.inr (hch.idlePin hf))]; exact h
  | true =>
    have hframe := serviceMatch_frame ch s
    have hother := h.exclusive ch hf
    refine EngineInv.of_otherIdle (serviceMatch_channelInv hch hf) ?_ ?_ fun hr => ?_
    · rw [inFlight, hframe.otherCmp]; exact hother
    · exact hframe.otherPin.trans ((h.channel _).idlePin hother)
    · have hstop := handler_inFlight_or_stopped (chanOf s ch).phase
        (outputAction_flying (hch.flying hf) (.compareMatch (chanOf s ch).phase ch s.tcnt))
      rw [← serviceMatch_of_inFlight hf] at hstop
      exact hstop.resolve_right (by simp [hr])

/-! ### Every operation keeps the engine's invariant -/

/-- The engine's invariant does not read `skip`. -/
theorem EngineInv.congr {s t : State} (h : EngineInv s)
    (hcmp : ∀ ch, ∃ skip, cmpOf t ch = { cmpOf s ch with skip := skip }) (hchan : t.chan = s.chan)
    (hpin : t.pin = s.pin) (hrunning : t.running = s.running) (howner : t.owner = s.owner) : EngineInv t := by
  have hfl : ∀ ch, inFlight t ch = inFlight s ch := by
    intro ch
    obtain ⟨skip, e⟩ := hcmp ch
    rw [inFlight, e, inFlight]
  refine ⟨fun ch => ?_, fun hr => ?_, fun ch => ?_⟩
  · rw [hfl, hfl]; exact h.exclusive ch
  · simp only [hfl]; exact h.timerUsed (hrunning ▸ hr)
  · exact (h.channel ch).congr (hcmp ch) (by rw [chanOf, hchan, chanOf]) (by rw [pinOf, hpin, pinOf])
      hrunning howner

theorem EngineInv.of_engineKept {s t : State} (h : EngineInv s) (hk : EngineKept s t) : EngineInv t :=
  h.congr (fun ch => ⟨(cmpOf s ch).skip, by rw [cmpOf, hk.cmp, cmpOf]⟩) hk.chan hk.pin hk.running hk.owner

theorem consumeSkip_engineInv (ch : Channel) (s : State) (h : EngineInv s) : EngineInv (consumeSkip ch s) := by
  unfold consumeSkip
  split
  · refine h.congr (fun c => ?_) rfl rfl rfl rfl
    rcases channel_eq_or_other c ch with rfl | rfl
    · exact ⟨false, pick_put_same ..⟩
    · exact ⟨_, pick_put_other ..⟩
  · exact h

theorem tickEffect_engineInv {s : State} (h : EngineInv s) : EngineInv (tickEffect s) :=
  tickEffect_keeps (fun _ h => h.of_engineKept ⟨rfl, rfl, rfl, rfl, rfl⟩) consumeSkip_engineInv serviceMatch_engineInv h

theorem armedState_flying (ch : Channel) (act inact : U16) (s : State) : Flying (armedState ch act inact s) ch :=
  ⟨inFlight_armedState .., rfl, rfl, by simp [chanOf, armedState, armedChannel]⟩

/-- The first ActiveStart decision gives the armed channel its invariant (R130). -/
theorem armEffect_channelInv (ch : Channel) (act : U16) {inact : U16} (s : State) (hinact : inact ≠ 0) :
    ChannelInv (armEffect ch act inact s) ch := by
  have hchan : chanOf (armedState ch act inact s) ch = armedChannel act inact := pick_put_same ..
  have hcom : (cmpOf (armedState ch act inact s) ch).com = .hold := by simp [cmpOf, armedState]
  have hpos : inact.toNat ≠ 0 := fun e => hinact (BitVec.eq_of_toNat_eq e)
  rw [armEffect_eq]
  refine activeDecide_channelInv (armedState_flying ch act inact s) ?_ (pick_put_same ..) hcom ?_ <;> rw [hchan]
  · rfl
  · exact Nat.one_le_iff_ne_zero.2 hpos

theorem inFlight_armEffect (ch : Channel) (act inact : U16) (s : State) :
    inFlight (armEffect ch act inact s) ch = true := by
  unfold armEffect
  exact congrArg CompareUnit.ie (pick_put_same ..)

theorem armEffect_engineInv {ch : Channel} {act inact : U16} {s : State} (h : EngineInv s)
    (hnone : armFault ch act inact s = none) : EngineInv (armEffect ch act inact s) := by
  obtain ⟨-, hother, -, hinact⟩ := (armFault_none_iff ch act inact s).1 hnone
  have hframe := armEffect_frame ch act inact s
  have hcmp : cmpOf (armEffect ch act inact s) (otherChannel ch) = cmpOf s (otherChannel ch) :=
    hframe.otherCmp.trans (pick_put_other ..)
  have hpin : pinOf (armEffect ch act inact s) (otherChannel ch) = pinOf s (otherChannel ch) :=
    hframe.otherPin.trans (pick_put_other ..)
  refine EngineInv.of_otherIdle (armEffect_channelInv ch act s hinact) ?_ ?_ fun _ => inFlight_armEffect ..
  · rw [inFlight, hcmp]; exact hother
  · exact hpin.trans ((h.channel _).idlePin hother)

theorem armThen_engineInv {ch : Channel} {act inact : U16} {after : State → State} {s : State} (h : EngineInv s)
    (hafter : ∀ u, EngineKept u (after u)) : EngineInv (armThen ch act inact after s) := by
  rcases armThen_cases ch act inact after s with ⟨hnone, e⟩ | ⟨code, -, e⟩ <;> rw [e]
  · exact (armEffect_engineInv h hnone).of_engineKept (hafter _)
  · exact h.of_engineKept ⟨rfl, rfl, rfl, rfl, rfl⟩

theorem schedEffect_engineInv {s : State} (h : EngineInv s) : EngineInv (schedEffect s) := by
  rcases schedEffect_cases s with ⟨ch, wait, -, e⟩ | ⟨c, e⟩ | ⟨-, -, e⟩ | ⟨-, -, e⟩ <;> rw [e]
  · exact armThen_engineInv h fun _ => ⟨rfl, rfl, rfl, rfl, rfl⟩
  all_goals exact h.of_engineKept ⟨rfl, rfl, rfl, rfl, rfl⟩

theorem effectOf_engineInv (i : Instr) {s : State} (h : EngineInv s) : EngineInv (effectOf i s) := by
  cases i with
  | sample raw => exact h.of_engineKept (sampleEffect_engineKept raw s)
  | tick => exact tickEffect_engineInv h
  | arm ch act inact => exact armThen_engineInv h fun _ => ⟨rfl, rfl, rfl, rfl, rfl⟩
  | poll ch => exact h.of_engineKept ⟨rfl, rfl, rfl, rfl, rfl⟩
  | step => exact schedEffect_engineInv h

/-! ### Every operation keeps the invariant's other half -/

theorem accBound_zero : -3 ≤ (0 : I8).toInt ∧ (0 : I8).toInt ≤ 3 := by decide

/-- The thresholds leave the accumulator within ±3, whatever it was (R105, R106). -/
theorem applyThresholds_accBound (s : State) :
    -3 ≤ (applyThresholds s).acc.toInt ∧ (applyThresholds s).acc.toInt ≤ 3 := by
  unfold applyThresholds
  split
  · exact accBound_zero
  · split
    · exact accBound_zero
    · omega

theorem sampleEffect_accBound (raw : U2) (s : State) :
    -3 ≤ (sampleEffect raw s).acc.toInt ∧ (sampleEffect raw s).acc.toInt ≤ 3 := by
  unfold sampleEffect detentReset
  split
  · exact accBound_zero
  · exact applyThresholds_accBound _

/-- What an operation other than SAMPLE does to the fields `OutsideInv` reads, but for the counter: a fault is recorded at
most, and it is one of R182's. -/
structure FaultFrame (s t : State) : Prop where
  cfg : t.cfg = s.cfg
  acc : t.acc = s.acc
  fault : t.fault = s.fault ∨ ∃ code : FaultCode, t.fault = code.code

theorem OutsideKept.faultFrame {s t : State} (h : OutsideKept s t) : FaultFrame s t :=
  ⟨h.cfg, h.acc, .inl h.fault⟩

theorem raiseFault_faultFrame (code : FaultCode) (ch : Channel) (s : State) : FaultFrame s (raiseFault code ch s) :=
  ⟨rfl, rfl, .inr ⟨code, rfl⟩⟩

theorem armThen_faultFrame (ch : Channel) (act inact : U16) {after : State → State} (s : State)
    (hafter : ∀ u, (after u).cfg = u.cfg ∧ (after u).acc = u.acc ∧ (after u).fault = u.fault) :
    FaultFrame s (armThen ch act inact after s) := by
  rcases armThen_cases ch act inact after s with ⟨-, e⟩ | ⟨code, -, e⟩ <;> rw [e]
  · obtain ⟨hcfg, hacc, hfault⟩ := hafter (armEffect ch act inact s)
    have hk := armEffect_outsideKept ch act inact s
    exact ⟨hcfg.trans hk.cfg, hacc.trans hk.acc, .inl (hfault.trans hk.fault)⟩
  · exact raiseFault_faultFrame code ch s

theorem schedEffect_faultFrame (s : State) : FaultFrame s (schedEffect s) := by
  rcases schedEffect_cases s with ⟨ch, wait, -, e⟩ | ⟨c, e⟩ | ⟨-, -, e⟩ | ⟨-, -, e⟩ <;> rw [e]
  · exact armThen_faultFrame _ _ _ s fun _ => ⟨rfl, rfl, rfl⟩
  all_goals exact ⟨rfl, rfl, .inl rfl⟩

theorem faultCode_code_le (code : FaultCode) : code.code.toNat ≤ 4 := by
  cases code <;> decide

theorem OutsideInv.of_faultFrame {s t : State} (h : OutsideInv s) (hf : FaultFrame s t) (hmove : CounterMove s t) :
    OutsideInv t := by
  obtain ⟨hlow, hhigh, -, -⟩ := hmove.bounds (counterLimit_le h.parameters) h.counterBound.1 h.counterBound.2
  refine ⟨hf.cfg ▸ h.parameters, hf.acc ▸ h.accBound, hf.cfg ▸ ⟨hlow, hhigh⟩, ?_⟩
  rcases hf.fault with e | ⟨code, e⟩ <;> rw [e]
  · exact h.faultCode
  · exact faultCode_code_le code

theorem sampleEffect_outsideInv (raw : U2) {s : State} (h : OutsideInv s) : OutsideInv (sampleEffect raw s) := by
  obtain ⟨hlow, hhigh, -, -⟩ :=
    (sampleEffect_counterMove raw s).bounds (counterLimit_le h.parameters) h.counterBound.1 h.counterBound.2
  exact ⟨sampleEffect_cfg raw s ▸ h.parameters, sampleEffect_accBound raw s, sampleEffect_cfg raw s ▸ ⟨hlow, hhigh⟩,
    sampleEffect_fault raw s ▸ h.faultCode⟩

theorem effectOf_outsideInv (i : Instr) {s : State} (h : OutsideInv s) : OutsideInv (effectOf i s) := by
  have hmove := effectOf_counterMove i s
  cases i with
  | sample raw => exact sampleEffect_outsideInv raw h
  | tick => exact h.of_faultFrame (tickEffect_outsideKept s).faultFrame hmove
  | arm ch act inact => exact h.of_faultFrame (armThen_faultFrame ch act inact s fun _ => ⟨rfl, rfl, rfl⟩) hmove
  | poll ch => exact h.of_faultFrame ⟨rfl, rfl, .inl rfl⟩ hmove
  | step => exact h.of_faultFrame (schedEffect_faultFrame s) hmove

/-! ### Every step keeps the invariant -/

theorem effectOf_blockInv (i : Instr) {s : State} (h : BlockInv s) : BlockInv (effectOf i s) :=
  .of_halves (effectOf_outsideInv i h.outsideInv) (effectOf_engineInv i h.engineInv)

theorem raiseFault_blockInv (code : FaultCode) (ch : Channel) {s : State} (h : BlockInv s) :
    BlockInv (raiseFault code ch s) :=
  .of_halves (h.outsideInv.of_faultFrame (raiseFault_faultFrame code ch s) (.inl rfl))
    (h.engineInv.of_engineKept ⟨rfl, rfl, rfl, rfl, rfl⟩)

theorem blockInv_withInput {s : State} (rest : List Byte) (h : BlockInv s) : BlockInv { s with input := rest } :=
  .of_halves (h.outsideInv.of_faultFrame ⟨rfl, rfl, .inl rfl⟩ (.inl rfl))
    (h.engineInv.of_engineKept ⟨rfl, rfl, rfl, rfl, rfl⟩)

/-- Settles O57: a step takes its word from `input`, then runs an operation's effect or records ILLEGAL_OP, and each keeps
both halves of the invariant. -/
theorem everyStepKeepsTheInvariant : Obligations.EveryStepKeepsTheInvariant := by
  intro s t h hstep
  rcases step_next_cases hstep with ⟨i, rest, -, -, rfl⟩ | ⟨-, rest, -, -, rfl⟩
  · exact effectOf_blockInv i (blockInv_withInput rest h)
  · exact raiseFault_blockInv _ _ (blockInv_withInput rest h)

end Sys2Proof.Machine
end

section
/-! The byte stream: little-endian words, and the partial word at its end (R52, R53). -/

namespace Sys2Proof.Machine

theorem getElem?_wordBytes (w : OpWord) {k : Nat} (hk : k < 8) :
    (wordBytes w)[k]? = some (w.extractLsb' (8 * k) 8) := by
  interval_cases k <;> rfl

/-- Eight bytes are the serialisation of the word they make (R52): each slice lies in one byte of the concatenation, found
by passing over the whole bytes below it. The converse of `wordOfBytes_bytes`. -/
theorem wordBytes_wordOfBytes (b0 b1 b2 b3 b4 b5 b6 b7 : Byte) :
    wordBytes (wordOfBytes b0 b1 b2 b3 b4 b5 b6 b7) = [b0, b1, b2, b3, b4, b5, b6, b7] := by
  simp [wordBytes, wordOfBytes, BitVec.extractLsb'_append_eq_of_le (w := 8),
    BitVec.extractLsb'_append_eq_right (w' := 8)]

/-- Settles O7: the bytes of a word slice by slice, and a duration as the quotient and remainder of its division by 256. -/
theorem wordsAreLittleEndian : Obligations.WordsAreLittleEndian := by
  refine ⟨fun w _ => getElem?_wordBytes w, fun _ => rfl, wordBytes_wordOfBytes, fun d => ⟨rfl, rfl, ?_⟩⟩
  rw [hi_toNat, lo_toNat, Nat.div_add_mod]

/-- A nonempty stream too short for a whole word is a partial word (R53). -/
theorem decodeBytes_of_length_lt {bytes : List Byte} (hpos : 0 < bytes.length) (hlt : bytes.length < 8) :
    decodeBytes bytes = .partialWord := by
  unfold decodeBytes
  split
  · simp at hpos
  · simp only [List.length_cons] at hlt
    omega
  · rfl

/-- Settles O9: the decoder reads a partial word, and `step` refuses it by that name. -/
theorem partialWordIsRefused : Obligations.PartialWordIsRefused := by
  intro s hpos hlt
  simp only [step, decodeBytes_of_length_lt hpos hlt]

end Sys2Proof.Machine
end

section
/-! The operation words: every row of the opcode table against the encoder, and the decoder from the rows (R70 to R78). -/

namespace Sys2Proof

/-! ### A laid-out word and its slices -/

theorem rawField_layout (op : U8) (ch : BitVec 1) (raw : U2) : rawField (layout op ch (0#30 ++ raw)) = raw := by
  unfold rawField layout
  rw [BitVec.extractLsb'_append_eq_of_add_le (by decide), BitVec.extractLsb'_append_eq_right]

/-- The word whose slices at R70's places are the given fields, with zeros at the reserved places. -/
theorem layout_eq_of_slices {w : OpWord} {op : U8} {ch : BitVec 1} {low : BitVec 32}
    (hop : w.extractLsb' 56 8 = op) (hhigh : w.extractLsb' 49 7 = 0) (hch : w.extractLsb' 48 1 = ch)
    (hmid : w.extractLsb' 32 16 = 0) (hlow : w.extractLsb' 0 32 = low) : layout op ch low = w := by
  subst hop hch hlow
  unfold layout
  rw [show (0#7) = _ from hhigh.symm, show (0#16) = _ from hmid.symm]
  iterate 4 rw [BitVec.extractLsb'_append_extractLsb'_eq_extractLsb' (by rfl)]
  exact BitVec.extractLsb'_eq_self

@[simp] theorem Channel.ofCode_code (ch : Channel) : Channel.ofCode ch.code = ch := by cases ch <;> rfl

@[simp] theorem Channel.code_ofCode (v : BitVec 1) : (Channel.ofCode v).code = v := by revert v; decide

/-! ### The rows of the opcode table -/

theorem OpcodeRow.fits_iff (r : OpcodeRow) (w : OpWord) : r.fits w = true ↔ w &&& r.mask = r.pattern := beq_iff_eq

/-- Where a row fixes a whole slice, a word that fits has the pattern's slice. -/
theorem OpcodeRow.slice_of_fits {r : OpcodeRow} {w : OpWord} (h : r.fits w = true) (start len : Nat)
    (hmask : r.mask.extractLsb' start len = BitVec.allOnes len) :
    w.extractLsb' start len = r.pattern.extractLsb' start len := by
  rw [← (r.fits_iff w).1 h, BitVec.extractLsb'_and, hmask, BitVec.and_allOnes]

/-- A row that fixes every bit fits its pattern alone. -/
theorem OpcodeRow.eq_pattern_of_fits {r : OpcodeRow} {w : OpWord} (h : r.fits w = true)
    (hmask : r.mask = BitVec.allOnes 64) : w = r.pattern := by
  rw [← (r.fits_iff w).1 h, hmask, BitVec.and_allOnes]

/-- Every row's operation is encoded by the word it was read from (R72 to R76). -/
theorem encode_build_of_fits : ∀ r ∈ opcodeRows, ∀ w, r.fits w = true → encode (r.build w) = w := by
  simp only [opcodeRows, List.forall_mem_cons]
  refine ⟨fun w h => ?sample, fun w h => ?tick, fun w h => ?arm, fun w h => ?poll, fun w h => ?step, List.forall_mem_nil _⟩
  case sample =>
    have hslice := OpcodeRow.slice_of_fits h
    refine layout_eq_of_slices (hslice 56 8 rfl) (hslice 49 7 rfl) (hslice 48 1 rfl) (hslice 32 16 rfl) ?_
    rw [← show w.extractLsb' 2 30 = 0#30 from hslice 2 30 rfl]
    exact (BitVec.extractLsb'_append_extractLsb'_eq_extractLsb' (x := w) (start₂ := 2) (len₁ := 2) rfl).symm
  case tick => exact (OpcodeRow.eq_pattern_of_fits h rfl).symm
  case arm =>
    have hslice := OpcodeRow.slice_of_fits h
    exact layout_eq_of_slices (hslice 56 8 rfl) (hslice 49 7 rfl) (Channel.code_ofCode _).symm (hslice 32 16 rfl)
      (BitVec.extractLsb'_append_extractLsb'_eq_extractLsb' (x := w) (start₂ := 16) (len₁ := 16) rfl).symm
  case poll =>
    have hslice := OpcodeRow.slice_of_fits h
    exact layout_eq_of_slices (hslice 56 8 rfl) (hslice 49 7 rfl) (Channel.code_ofCode _).symm (hslice 32 16 rfl)
      (hslice 0 32 rfl)
  case step => exact (OpcodeRow.eq_pattern_of_fits h rfl).symm

/-- The row of every operation fits its word and reads its operands back (R72 to R76). -/
theorem exists_row_of_encode (i : Instr) : ∃ r ∈ opcodeRows, r.fits (encode i) = true ∧ r.build (encode i) = i := by
  cases i with
  | sample raw =>
    refine ⟨opcodeRows[0], List.getElem_mem _, ?_, congrArg Instr.sample (rawField_layout ..)⟩
    revert raw
    decide
  | tick => exact ⟨opcodeRows[1], List.getElem_mem _, by decide, rfl⟩
  | arm ch act inact =>
    refine ⟨opcodeRows[2], List.getElem_mem _, ?_, ?_⟩
    · rw [OpcodeRow.fits_iff]
      change (0x03#8 ++ 0#7 ++ ch.code ++ 0#16) ++ (act ++ inact) &&& 0xFFFEFFFF#32 ++ 0#32 = 0x03000000#32 ++ 0#32
      rw [BitVec.and_append, BitVec.and_zero]
      cases ch <;> rfl
    · change Instr.arm (.ofCode (channelField (layout ..))) (actField (layout ..)) (inactField (layout ..)) = _
      rw [channelField_layout, actField_layout, inactField_layout, Channel.ofCode_code]
  | poll ch => exact ⟨opcodeRows[3], List.getElem_mem _, by cases ch <;> decide, by cases ch <;> decide⟩
  | step => exact ⟨opcodeRows[4], List.getElem_mem _, by decide, rfl⟩

theorem opField_mask : ∀ r ∈ opcodeRows, opField r.mask = BitVec.allOnes 8 := by decide

/-- Each row fixes the whole op field (R71). -/
theorem opField_of_fits {r : OpcodeRow} (hr : r ∈ opcodeRows) {w : OpWord} (h : r.fits w = true) :
    opField w = opField r.pattern :=
  r.slice_of_fits h 56 8 (opField_mask r hr)

/-- The rows have different opcodes (R71). -/
theorem row_eq_of_opField {r r' : OpcodeRow} (hr : r ∈ opcodeRows) (hr' : r' ∈ opcodeRows)
    (h : opField r.pattern = opField r'.pattern) : r = r' := by
  have hnodup : (opcodeRows.map fun r => opField r.pattern).Nodup := by decide
  exact List.inj_on_of_nodup_map hnodup hr hr' h

theorem decodeWord_of_fits {r : OpcodeRow} (hr : r ∈ opcodeRows) {w : OpWord} (h : r.fits w = true) :
    decodeWord w = .operation (r.build w) := by
  unfold decodeWord
  cases hfind : opcodeRows.find? (fun r => r.fits w) with
  | some r' =>
    have hr' := List.mem_of_find?_eq_some hfind
    have h' := List.find?_some hfind
    have he : r' = r := row_eq_of_opField hr' hr ((opField_of_fits hr' h').symm.trans (opField_of_fits hr h))
    rw [he]
  | none => exact absurd h (List.find?_eq_none.1 hfind r hr)

theorem decodeWord_of_no_fit {w : OpWord} (h : ∀ r ∈ opcodeRows, ¬ r.fits w = true) :
    decodeWord w = .illegal (if opcodeKnown (opField w) then .fixedBitWrong else .unknownOpcode) := by
  unfold decodeWord
  rw [List.find?_eq_none.2 h]

theorem decodeWord_encode (i : Instr) : decodeWord (encode i) = .operation i := by
  obtain ⟨r, hr, hfits, hbuild⟩ := exists_row_of_encode i
  rw [decodeWord_of_fits hr hfits, hbuild]

/-- Settles O1: the word's row is the only one that fits, and the eight bytes are that word's. -/
theorem decodeOfEncodeIsOperation : Obligations.DecodeOfEncodeIsOperation := by
  intro i _
  refine ⟨decodeWord_encode i, fun rest => ?_⟩
  rw [decodeBytes_wordBytes, decodeWord_encode]

/-- Settles O2: a word that fits a row is encoded by that row's operation alone; one that fits none is encoded by nothing,
because an operation's word decodes. -/
theorem everyWordIsOneOperationOrIllegal : Obligations.EveryWordIsOneOperationOrIllegal := by
  refine ⟨fun w => ?_, ?_⟩
  · have hinj : ∀ i j, decodeWord w = .operation i → encode j = w → j = i := by
      rintro i j hi rfl
      exact DecodedWord.operation.inj ((decodeWord_encode j).symm.trans hi)
    by_cases h : ∃ r ∈ opcodeRows, r.fits w = true
    · obtain ⟨r, hr, hfits⟩ := h
      have hdecode := decodeWord_of_fits hr hfits
      exact .inl ⟨r.build w, hdecode, encode_build_of_fits r hr w hfits, fun j => hinj _ j hdecode⟩
    · refine .inr ⟨_, decodeWord_of_no_fit fun r hr hfits => h ⟨r, hr, hfits⟩, ?_⟩
      rintro j rfl
      obtain ⟨r, hr, hfits, -⟩ := exists_row_of_encode j
      exact h ⟨r, hr, hfits⟩
  · have hops : opcodeRows.Pairwise (fun r r' => opField r.pattern ≠ opField r'.pattern) := by decide
    refine hops.imp_of_mem fun hr hr' hne w h => ?_
    obtain ⟨hfits, hfits'⟩ := h
    exact hne ((opField_of_fits hr hfits).symm.trans (opField_of_fits hr' hfits'))

/-- Settles O4: the encoder gives the six words, and each decodes as every operation's word does. -/
theorem workedWordsDecodeAndEncode : Obligations.WorkedWordsDecodeAndEncode := by
  intro p hp
  have hword : encode p.1 = p.2 := by
    revert p
    decide
  exact ⟨hword, hword ▸ decodeWord_encode p.1⟩

/-- Settles O6: the words are computed, and the repetitions are so by definition. -/
theorem clickExpansionsAreTheirWords : Obligations.ClickExpansionsAreTheirWords :=
  ⟨by decide, by decide, fun _ => ⟨rfl, rfl⟩⟩

/-! ### Illegal words -/

theorem opcodeKnown_pattern : ∀ r ∈ opcodeRows, opcodeKnown (opField r.pattern) = true := by decide

theorem exists_row_of_opcodeKnown : ∀ op : U8, opcodeKnown op = true → ∃ r ∈ opcodeRows, op = opField r.pattern := by
  decide

/-- A word that fits a row has a known opcode, so the decoder's test of the opcode decides this name (R77). -/
theorem decodeWord_unknownOpcode_iff (w : OpWord) :
    decodeWord w = .illegal .unknownOpcode ↔ opcodeKnown (opField w) = false := by
  by_cases h : ∃ r ∈ opcodeRows, r.fits w = true
  · obtain ⟨r, hr, hfits⟩ := h
    simp [decodeWord_of_fits hr hfits, opField_of_fits hr hfits, opcodeKnown_pattern r hr]
  · rw [decodeWord_of_no_fit fun r hr hfits => h ⟨r, hr, hfits⟩]
    cases opcodeKnown (opField w) <;> simp

/-- A word with a row's opcode is illegal for a fixed bit exactly when it does not fit that row (R77). -/
theorem decodeWord_fixedBitWrong_iff (w : OpWord) :
    decodeWord w = .illegal .fixedBitWrong ↔
      ∃ r ∈ opcodeRows, opField w = opField r.pattern ∧ w &&& r.mask ≠ r.pattern := by
  by_cases h : ∃ r ∈ opcodeRows, r.fits w = true
  · obtain ⟨r, hr, hfits⟩ := h
    rw [decodeWord_of_fits hr hfits]
    refine ⟨(fun e => nomatch e), ?_⟩
    rintro ⟨r', hr', hop, hne⟩
    have he : r' = r := row_eq_of_opField hr' hr (hop.symm.trans (opField_of_fits hr hfits))
    rw [he] at hne
    exact absurd ((r.fits_iff w).1 hfits) hne
  · have hno : ∀ r ∈ opcodeRows, ¬ r.fits w = true := fun r hr hfits => h ⟨r, hr, hfits⟩
    rw [decodeWord_of_no_fit hno]
    constructor
    · intro e
      have hknown : opcodeKnown (opField w) = true := by
        by_contra hunknown
        rw [if_neg hunknown] at e
        cases e
      obtain ⟨r, hr, hop⟩ := exists_row_of_opcodeKnown _ hknown
      exact ⟨r, hr, hop, fun e => hno r hr ((r.fits_iff w).2 e)⟩
    · rintro ⟨r, hr, hop, -⟩
      rw [hop, if_pos (opcodeKnown_pattern r hr)]

/-- A record's op is in R80's range. -/
theorem le_opField_record (r : TraceRecord) : 0x80 ≤ (opField r.encode).toNat := by
  cases r with
  | compareMatch p ch position => cases p <;> simp [TraceRecord.encode, opField_layout, Phase.code]
  | _ => simp [TraceRecord.encode, opField_layout]

theorem decodeWord_record (r : TraceRecord) : decodeWord r.encode = .illegal .unknownOpcode := by
  have hop := le_opField_record r
  rw [decodeWord_unknownOpcode_iff, opcodeKnown, Bool.and_eq_false_iff, decide_eq_false_iff_not, decide_eq_false_iff_not]
  exact .inr (by omega)

end Sys2Proof

namespace Sys2Proof.Machine

/-- The step of an unfaulted block that meets an illegal word (R77, R181). -/
theorem step_of_illegal {s : State} {why : IllegalWord} {rest : List Byte} (hfault : s.fault = 0)
    (h : decodeBytes s.input = .illegal why rest) :
    step s = .next (raiseFault .illegalOp .a { s with input := rest }) := by
  simp only [step, h]
  exact completes_of_unfaulted _ hfault

/-- Settles O3: the decoder's two illegal answers from the rows, and the fetch of an illegal word. -/
theorem illegalWordsRaiseIllegalOp : Obligations.IllegalWordsRaiseIllegalOp := by
  refine ⟨fun w => ?_, fun w => ?_, decodeWord_record, fun s w why rest hfault hinput hdecode => ?_⟩
  · rw [decodeWord_unknownOpcode_iff, opcodeKnown, opField, ← Bool.decide_and, decide_eq_false_iff_not]
  · rw [decodeWord_fixedBitWrong_iff]
    simp only [opcodeRows, List.exists_mem_cons_iff, List.not_mem_nil, false_and, exists_false, or_false]
    exact Iff.rfl
  · have hbytes : decodeBytes s.input = .illegal why rest := by rw [hinput, decodeBytes_wordBytes, hdecode]
    exact step_of_illegal hfault hbytes

end Sys2Proof.Machine
end

section
/-! The trace records' words (R80): their layout, and reading them back. -/

namespace Sys2Proof

/-! ### The fields of a record's word -/

theorem byteField_layout (op : U8) (ch : BitVec 1) (v : U8) : byteField (layout op ch (lowByte v)) = v := by
  unfold byteField layout lowByte
  rw [BitVec.extractLsb'_append_eq_of_add_le (by decide), BitVec.extractLsb'_append_eq_right]

theorem bitField_layout (op : U8) (ch v : BitVec 1) : bitField (layout op ch (lowBit v)) = v := by
  unfold bitField layout lowBit
  rw [BitVec.extractLsb'_append_eq_of_add_le (by decide), BitVec.extractLsb'_append_eq_right]

@[simp] theorem PinLevel.ofCode_code (level : PinLevel) : PinLevel.ofCode level.code = level := by cases level <;> rfl

/-- A record is read back from its word: the op chooses the constructor, and every field stands at its place (R80). -/
theorem decode_encode_record (r : TraceRecord) : TraceRecord.decode r.encode = some r := by
  cases r with
  | pollRes ch value =>
    cases value <;> simp [TraceRecord.decode, TraceRecord.encode, opField_layout, channelField_layout, bitField_layout]
  | compareMatch p ch position =>
    cases p <;> simp [TraceRecord.decode, TraceRecord.encode, opField_layout, channelField_layout, byteField_layout,
      Phase.code, Phase.ofCode]
  | _ =>
    simp [TraceRecord.decode, TraceRecord.encode, opField_layout, channelField_layout, byteField_layout,
      bitField_layout, actField_layout, inactField_layout]

/-! ### The fields of a word as one concatenation -/

/-- A byte that ends the low 32 bits ends the word. -/
theorem layout_lowByte (op : U8) (ch : BitVec 1) (v : U8) :
    layout op ch (lowByte v) = op ++ 0#7 ++ ch ++ 0#16 ++ 0#24 ++ v :=
  (BitVec.append_assoc (x₁ := op ++ 0#7 ++ ch ++ 0#16) (x₂ := 0#24) (x₃ := v)).symm

/-- Two durations that fill the low 32 bits end the word. -/
theorem layout_durations (op : U8) (ch : BitVec 1) (act inact : U16) :
    layout op ch (act ++ inact) = op ++ 0#7 ++ ch ++ 0#16 ++ act ++ inact :=
  (BitVec.append_assoc (x₁ := op ++ 0#7 ++ ch ++ 0#16) (x₂ := act) (x₃ := inact)).symm

/-- Settles O5: the word of each record is closed but for its byte or its durations, which end it. -/
theorem traceRecordsReadBack : Obligations.TraceRecordsReadBack := by
  intro r
  refine ⟨?_, decode_encode_record r, le_opField_record r⟩
  cases r with
  | evCw => rfl
  | evCcw => rfl
  | counter value => exact layout_lowByte ..
  | pin ch level => cases ch <;> cases level <;> rfl
  | finished ch => cases ch <;> rfl
  | pollRes ch value => cases ch <;> cases value <;> rfl
  | fault code ch => cases ch <;> exact layout_lowByte ..
  | armed ch act inact => cases ch <;> exact layout_durations ..
  | compareMatch p ch position => cases p <;> cases ch <;> exact layout_lowByte ..

end Sys2Proof
end

section
/-! The COUNTER and PIN records: one exactly when the value they report changes (R82, R83). -/

namespace Sys2Proof.Machine

/-! ### Records of one kind and the value they report -/

/-- No record of kind `k` is appended from `s` to `t`. -/
def SilentOn (k : TraceRecord → Bool) (s t : State) : Prop := ∃ rs, Appends s t rs ∧ rs.filter k = []

/-- The records of kind `k` appended from `s` to `t` are none if the value `v` is as before, and otherwise the one with the
new value. -/
def ReportsChange {α : Type} [DecidableEq α] (k : TraceRecord → Bool) (v : State → α) (record : α → TraceRecord)
    (s t : State) : Prop :=
  ∃ rs, Appends s t rs ∧ rs.filter k = if v t = v s then [] else [record (v t)]

section
variable {k : TraceRecord → Bool} {s t u : State}

theorem SilentOn.of_trace_eq (h : t.trace = s.trace) : SilentOn k s t :=
  ⟨[], by rw [Appends, h, List.append_nil], rfl⟩

theorem SilentOn.refl (k : TraceRecord → Bool) (s : State) : SilentOn k s s := .of_trace_eq rfl

theorem SilentOn.emit {r : TraceRecord} (s : State) (hr : k r = false) : SilentOn k s (emit r s) :=
  ⟨[r], rfl, by simp [hr]⟩

theorem SilentOn.trans (h : SilentOn k s t) (h' : SilentOn k t u) : SilentOn k s u := by
  obtain ⟨rs, ht, hrs⟩ := h
  obtain ⟨rs', hu, hrs'⟩ := h'
  exact ⟨rs ++ rs', by rw [Appends, hu, ht, List.append_assoc], by rw [List.filter_append, hrs, hrs']; rfl⟩

variable {α : Type} [DecidableEq α] {v : State → α} {record : α → TraceRecord}

theorem ReportsChange.of_silentOn (h : SilentOn k s t) (hv : v t = v s) : ReportsChange k v record s t := by
  obtain ⟨rs, ht, hrs⟩ := h
  exact ⟨rs, ht, by rw [hrs, if_pos hv]⟩

/-- One record that gives the new value. -/
theorem ReportsChange.of_record {x : α} (hk : k (record x) = true) (ht : t.trace = s.trace ++ [record x]) (hx : v t = x)
    (hne : x ≠ v s) : ReportsChange k v record s t :=
  ⟨[record x], ht, by rw [hx, if_neg hne, List.filter_singleton, hk]; rfl⟩

/-- A part that is silent and keeps the value may go before. -/
theorem ReportsChange.after_silentOn (h : SilentOn k s t) (hv : v t = v s) (h' : ReportsChange k v record t u) :
    ReportsChange k v record s u := by
  obtain ⟨rs, ht, hrs⟩ := h
  obtain ⟨rs', hu, hrs'⟩ := h'
  exact ⟨rs ++ rs', by rw [Appends, hu, ht, List.append_assoc], by rw [List.filter_append, hrs, hrs', hv]; rfl⟩

/-- A part that is silent and keeps the value may follow. -/
theorem ReportsChange.then_silentOn (h : ReportsChange k v record s t) (h' : SilentOn k t u) (hv : v u = v t) :
    ReportsChange k v record s u := by
  obtain ⟨rs, ht, hrs⟩ := h
  obtain ⟨rs', hu, hrs'⟩ := h'
  exact ⟨rs ++ rs', by rw [Appends, hu, ht, List.append_assoc], by rw [List.filter_append, hrs, hrs', hv, List.append_nil]⟩

end

/-- The COUNTER records report the counter (R82). -/
abbrev ReportsCounter : State → State → Prop := ReportsChange isCounter State.counter .counter

/-- The PIN records of channel `ch` report its pin (R83). -/
abbrev ReportsPin (ch : Channel) : State → State → Prop := ReportsChange (isPinOf ch) (pinOf · ch) (.pin ch)

theorem isPinOf_pin_ne {c ch : Channel} (h : ch ≠ c) (level : PinLevel) : isPinOf c (.pin ch level) = false :=
  beq_eq_false_iff_ne.2 h

/-! ### Setting the counter and a pin -/

theorem setCounter_reportsCounter {v : I8} {s : State} (h : v ≠ s.counter) : ReportsCounter s (setCounter v s) :=
  .of_record rfl rfl rfl h

theorem setCounter_silentOn {k : TraceRecord → Bool} (hk : ∀ v, k (.counter v) = false) (v : I8) (s : State) :
    SilentOn k s (setCounter v s) :=
  .emit _ (hk v)

theorem setPin_silentOn {k : TraceRecord → Bool} {ch : Channel} (hk : ∀ level, k (.pin ch level) = false) (v : PinLevel)
    (s : State) : SilentOn k s (setPin ch v s) := by
  unfold setPin
  split
  · exact .refl k s
  · exact .emit _ (hk v)

theorem setPin_reportsPin (ch : Channel) (v : PinLevel) (s : State) : ReportsPin ch s (setPin ch v s) := by
  unfold setPin
  split
  · exact .of_silentOn (.refl _ s) rfl
  · next h => exact .of_record (beq_self_eq_true ch) rfl (pick_put_same ..) (Ne.symm h)

/-! ### TICK -/

/-- A handler programs a compare or finishes the pulse: no pin is written, and the only record is FINISHED (R130 to
R138). -/
theorem handler_trace_pin (p : Phase) (ch : Channel) (s : State) :
    (handler p ch s).trace = s.trace ++ (if p = .inactiveFinish then [.finished ch] else []) ∧
      (handler p ch s).pin = s.pin := by
  cases p with
  | activeStart =>
    rw [handler, activeDecide, activeFit_eq, activeChain_eq]
    split <;> exact ⟨(List.append_nil _).symm, rfl⟩
  | inactiveStart =>
    rw [handler, inactiveStart, inactiveFit_eq, inactiveOver_eq]
    split <;> exact ⟨(List.append_nil _).symm, rfl⟩
  | inactiveContinue =>
    rw [handler, inactiveContinue_eq]
    split <;> exact ⟨(List.append_nil _).symm, rfl⟩
  | inactiveFinish =>
    rw [handler, inactiveFinish_eq]
    exact ⟨rfl, rfl⟩

theorem handler_silentOn {k : TraceRecord → Bool} {ch : Channel} (hfinished : k (.finished ch) = false) (p : Phase)
    (s : State) : SilentOn k s (handler p ch s) := by
  refine ⟨_, (handler_trace_pin p ch s).1, ?_⟩
  split
  · simp [hfinished]
  · rfl

theorem interruptOnMatch_silentOn {k : TraceRecord → Bool} {ch : Channel} (hmatch : ∀ p q, k (.compareMatch p ch q) = false)
    (hfinished : k (.finished ch) = false) (s : State) : SilentOn k s (interruptOnMatch ch s) := by
  unfold interruptOnMatch
  split
  · exact (SilentOn.emit s (hmatch _ _)).trans (handler_silentOn hfinished _ _)
  · exact .refl k s

theorem interruptOnMatch_pin (ch : Channel) (s : State) : (interruptOnMatch ch s).pin = s.pin := by
  unfold interruptOnMatch
  split
  · exact (handler_trace_pin ..).2
  · rfl

theorem outputAction_silentOn {k : TraceRecord → Bool} {ch : Channel} (hk : ∀ level, k (.pin ch level) = false)
    (s : State) : SilentOn k s (outputAction ch s) := by
  unfold outputAction
  split
  · exact setPin_silentOn hk .inactive s
  · exact .refl k s

theorem serviceMatch_silentOn {k : TraceRecord → Bool} {ch : Channel} (hpin : ∀ level, k (.pin ch level) = false)
    (hmatch : ∀ p q, k (.compareMatch p ch q) = false) (hfinished : k (.finished ch) = false) (s : State) :
    SilentOn k s (serviceMatch ch s) :=
  (outputAction_silentOn hpin s).trans (interruptOnMatch_silentOn hmatch hfinished _)

theorem outputAction_reportsPin (ch : Channel) (s : State) : ReportsPin ch s (outputAction ch s) := by
  unfold outputAction
  split
  · exact setPin_reportsPin ch .inactive s
  · exact .of_silentOn (.refl _ s) rfl

/-- A unit's service writes its pin in the output action alone (R125). -/
theorem serviceMatch_reportsPin (ch : Channel) (s : State) : ReportsPin ch s (serviceMatch ch s) :=
  (outputAction_reportsPin ch s).then_silentOn (interruptOnMatch_silentOn (fun _ _ => rfl) rfl _)
    (congrArg (pick · ch) (interruptOnMatch_pin ch _))

theorem consumeSkip_trace_pin (ch : Channel) (s : State) :
    (consumeSkip ch s).trace = s.trace ∧ (consumeSkip ch s).pin = s.pin := by
  unfold consumeSkip
  split <;> exact ⟨rfl, rfl⟩

theorem tickEffect_reportsCounter (s : State) : ReportsCounter s (tickEffect s) := by
  refine .of_silentOn ?_ (tickEffect_outsideKept s).counter
  refine tickEffect_keeps (P := SilentOn isCounter s) (fun u h => h.trans (.of_trace_eq rfl)) (fun ch u h => ?_)
    (fun ch u h => ?_) (.refl _ s)
  · exact h.trans (.of_trace_eq (consumeSkip_trace_pin ch u).1)
  · exact h.trans (serviceMatch_silentOn (fun _ => rfl) (fun _ _ => rfl) rfl u)

/-- A unit serviced if `b` reports its own pin, and is silent on the other one, which it keeps (R125, R194). -/
theorem servicedIf_reportsPin (b : Bool) (ch : Channel) (s : State) :
    ReportsPin ch s (if b then serviceMatch ch s else s) := by
  cases b
  · exact .of_silentOn (.refl _ s) rfl
  · exact serviceMatch_reportsPin ch s

theorem servicedIf_otherPin (b : Bool) (ch : Channel) (s : State) :
    SilentOn (isPinOf (otherChannel ch)) s (if b then serviceMatch ch s else s) ∧
      pinOf (if b then serviceMatch ch s else s) (otherChannel ch) = pinOf s (otherChannel ch) := by
  cases b
  · exact ⟨.refl _ s, rfl⟩
  · exact ⟨serviceMatch_silentOn (isPinOf_pin_ne (otherChannel_ne ch).symm) (fun _ _ => rfl) rfl s,
      (serviceMatch_frame ch s).otherPin⟩

/-- Each unit is serviced once at most, so each pin is written once at most (R122). -/
theorem tickEffect_reportsPin (ch : Channel) (s : State) : ReportsPin ch s (tickEffect s) := by
  unfold tickEffect
  split
  · have hready : (consumeSkip .b (consumeSkip .a (advanceTimer s))).trace = s.trace ∧
        (consumeSkip .b (consumeSkip .a (advanceTimer s))).pin = s.pin := by
      obtain ⟨hta, hpa⟩ := consumeSkip_trace_pin .a (advanceTimer s)
      obtain ⟨htb, hpb⟩ := consumeSkip_trace_pin .b (consumeSkip .a (advanceTimer s))
      exact ⟨htb.trans hta, hpb.trans hpa⟩
    obtain ⟨htrace, hpin⟩ := hready
    refine .after_silentOn (.of_trace_eq htrace) (congrArg (pick · ch) hpin) ?_
    cases ch with
    | a =>
      obtain ⟨hsilent, hkept⟩ := servicedIf_otherPin _ .b _
      exact (servicedIf_reportsPin _ .a _).then_silentOn hsilent hkept
    | b =>
      obtain ⟨hsilent, hkept⟩ := servicedIf_otherPin _ .a _
      exact .after_silentOn hsilent hkept (servicedIf_reportsPin _ .b _)
  · exact .of_silentOn (.refl _ s) rfl

/-! ### ARM -/

/-- An ARM's records and pins are those of its ARMED record and its `setPin` (R127). -/
theorem armEffect_trace_pin (ch : Channel) (act inact : U16) (s : State) :
    (armEffect ch act inact s).trace = (setPin ch .active (emit (.armed ch act inact) s)).trace ∧
      (armEffect ch act inact s).pin = (setPin ch .active (emit (.armed ch act inact) s)).pin := by
  obtain ⟨htrace, hpin⟩ := handler_trace_pin .activeStart ch (armedState ch act inact s)
  rw [armEffect_eq, setPin_trace, setPin_pin]
  exact ⟨htrace.trans (List.append_nil _), hpin⟩

theorem armEffect_silentOn {k : TraceRecord → Bool} {ch : Channel} (hpin : ∀ level, k (.pin ch level) = false)
    (harmed : ∀ act inact, k (.armed ch act inact) = false) (act inact : U16) (s : State) :
    SilentOn k s (armEffect ch act inact s) :=
  ((SilentOn.emit s (harmed act inact)).trans (setPin_silentOn hpin .active _)).trans
    (.of_trace_eq (armEffect_trace_pin ch act inact s).1)

theorem armEffect_reportsPin (c ch : Channel) (act inact : U16) (s : State) :
    ReportsPin c s (armEffect ch act inact s) := by
  obtain ⟨htrace, hpin⟩ := armEffect_trace_pin ch act inact s
  refine .after_silentOn (t := emit (.armed ch act inact) s) (.emit s rfl) rfl ?_
  refine ReportsChange.then_silentOn (t := setPin ch .active (emit (.armed ch act inact) s)) ?_ (.of_trace_eq htrace)
    (congrArg (pick · c) hpin)
  rcases channel_eq_or_other c ch with rfl | rfl
  · exact setPin_reportsPin ..
  · refine .of_silentOn (setPin_silentOn (isPinOf_pin_ne (otherChannel_ne ch).symm) ..) ?_
    rw [pinOf, setPin_pin, pick_put_other]
    rfl

/-- An ARM inside a step reports what its writes report: a fault writes neither the counter nor a pin, and what follows
the writes appends nothing (R14, R127). -/
theorem armThen_reportsChange {α : Type} [DecidableEq α] {k : TraceRecord → Bool} {v : State → α}
    {record : α → TraceRecord} {ch : Channel} {act inact : U16} {after : State → State} {s : State}
    (harm : ReportsChange k v record s (armEffect ch act inact s)) (hfault : ∀ code, k (.fault code ch) = false)
    (hv : ∀ code, v (raiseFault code ch s) = v s) (hafter : ∀ u, (after u).trace = u.trace ∧ v (after u) = v u) :
    ReportsChange k v record s (armThen ch act inact after s) := by
  rcases armThen_cases ch act inact after s with ⟨-, e⟩ | ⟨code, -, e⟩ <;> rw [e]
  · obtain ⟨htrace, hkept⟩ := hafter (armEffect ch act inact s)
    exact harm.then_silentOn (.of_trace_eq htrace) hkept
  · exact .of_silentOn ⟨_, raiseFault_trace code ch s, by simp [hfault]⟩ (hv code)

theorem armThen_reportsCounter (ch : Channel) (act inact : U16) {after : State → State} (s : State)
    (hafter : ∀ u, (after u).trace = u.trace ∧ (after u).counter = u.counter) :
    ReportsCounter s (armThen ch act inact after s) :=
  armThen_reportsChange
    (.of_silentOn (armEffect_silentOn (fun _ => rfl) (fun _ _ => rfl) act inact s) (armEffect_outsideKept ..).counter)
    (fun _ => rfl) (fun _ => rfl) hafter

theorem armThen_reportsPin (c ch : Channel) (act inact : U16) {after : State → State} (s : State)
    (hafter : ∀ u, (after u).trace = u.trace ∧ pinOf (after u) c = pinOf u c) :
    ReportsPin c s (armThen ch act inact after s) :=
  armThen_reportsChange (armEffect_reportsPin c ch act inact s) (fun _ => rfl) (fun _ => rfl) hafter

/-! ### SAMPLE -/

theorem counter_add_one_ne (v : I8) : v + 1 ≠ v := by simp

theorem counter_sub_one_ne (v : I8) : v - 1 ≠ v := by bv_omega

theorem cwCallback_reportsCounter (s : State) : ReportsCounter s (cwCallback s) := by
  rcases cwCallback_cases s with e | ⟨-, e⟩ <;> rw [e]
  · exact .of_silentOn (.refl _ s) rfl
  · exact setCounter_reportsCounter (counter_add_one_ne _)

theorem ccwCallback_reportsCounter (s : State) : ReportsCounter s (ccwCallback s) := by
  rcases ccwCallback_cases s with e | ⟨-, e⟩ <;> rw [e]
  · exact .of_silentOn (.refl _ s) rfl
  · exact setCounter_reportsCounter (counter_sub_one_ne _)

theorem applyThresholds_reportsCounter (s : State) : ReportsCounter s (applyThresholds s) := by
  unfold applyThresholds
  split
  · exact .after_silentOn (.emit s rfl) rfl
      ((cwCallback_reportsCounter (emit .evCw s)).then_silentOn (.of_trace_eq rfl) rfl)
  · split
    · exact .after_silentOn (.emit s rfl) rfl
        ((ccwCallback_reportsCounter (emit .evCcw s)).then_silentOn (.of_trace_eq rfl) rfl)
    · exact .of_silentOn (.refl _ s) rfl

theorem detentReset_trace (s : State) : (detentReset s).trace = s.trace := by
  unfold detentReset
  split <;> rfl

theorem sampleEffect_reportsCounter (raw : U2) (s : State) : ReportsCounter s (sampleEffect raw s) := by
  refine .after_silentOn (t := accumulate (shiftHistory (normalise raw) s)) (.of_trace_eq rfl) rfl ?_
  exact (applyThresholds_reportsCounter _).then_silentOn (.of_trace_eq (detentReset_trace _)) (detentReset_counter _)

theorem applyThresholds_silentOn {k : TraceRecord → Bool} (hcw : k .evCw = false) (hccw : k .evCcw = false)
    (hcounter : ∀ v, k (.counter v) = false) (s : State) : SilentOn k s (applyThresholds s) := by
  unfold applyThresholds
  split
  · refine (SilentOn.emit s hcw).trans (.trans ?_ (.of_trace_eq rfl))
    rcases cwCallback_cases (emit .evCw s) with e | ⟨-, e⟩ <;> rw [e]
    · exact .refl k _
    · exact setCounter_silentOn hcounter _ _
  · split
    · refine (SilentOn.emit s hccw).trans (.trans ?_ (.of_trace_eq rfl))
      rcases ccwCallback_cases (emit .evCcw s) with e | ⟨-, e⟩ <;> rw [e]
      · exact .refl k _
      · exact setCounter_silentOn hcounter _ _
    · exact .refl k s

theorem sampleEffect_reportsPin (ch : Channel) (raw : U2) (s : State) : ReportsPin ch s (sampleEffect raw s) := by
  refine .of_silentOn ?_ (congrArg (pick · ch) (sampleEffect_engineKept raw s).pin)
  refine SilentOn.trans (t := accumulate (shiftHistory (normalise raw) s)) (.of_trace_eq rfl) ?_
  exact (applyThresholds_silentOn rfl rfl (fun _ => rfl) _).trans (.of_trace_eq (detentReset_trace _))

/-! ### STEP -/

theorem schedEffect_reportsCounter (s : State) : ReportsCounter s (schedEffect s) := by
  rcases schedEffect_cases s with ⟨ch, wait, -, e⟩ | ⟨c, e⟩ | ⟨-, -, e⟩ | ⟨-, -, e⟩ <;> rw [e]
  · exact armThen_reportsCounter _ _ _ s fun _ => ⟨rfl, rfl⟩
  · exact .of_silentOn (.of_trace_eq rfl) rfl
  · exact (setCounter_reportsCounter (counter_sub_one_ne _)).then_silentOn (.of_trace_eq rfl) rfl
  · exact (setCounter_reportsCounter (counter_add_one_ne _)).then_silentOn (.of_trace_eq rfl) rfl

theorem schedEffect_reportsPin (ch : Channel) (s : State) : ReportsPin ch s (schedEffect s) := by
  have hcommit : ∀ v, SilentOn (isPinOf ch) s (setSched .inspect (setCounter v s)) := fun v =>
    (setCounter_silentOn (fun _ => rfl) v s).trans (.of_trace_eq rfl)
  rcases schedEffect_cases s with ⟨c, wait, -, e⟩ | ⟨c, e⟩ | ⟨-, -, e⟩ | ⟨-, -, e⟩ <;> rw [e]
  · exact armThen_reportsPin ch _ _ _ s fun _ => ⟨rfl, rfl⟩
  · exact .of_silentOn (.of_trace_eq rfl) rfl
  · exact .of_silentOn (hcommit _) rfl
  · exact .of_silentOn (hcommit _) rfl

/-! ### Every operation -/

theorem effectOf_reportsCounter (i : Instr) (s : State) : ReportsCounter s (effectOf i s) := by
  cases i with
  | sample raw => exact sampleEffect_reportsCounter raw s
  | tick => exact tickEffect_reportsCounter s
  | arm ch act inact => exact armThen_reportsCounter ch act inact s fun _ => ⟨rfl, rfl⟩
  | poll ch => exact .of_silentOn (.emit s rfl) rfl
  | step => exact schedEffect_reportsCounter s

theorem effectOf_reportsPin (ch : Channel) (i : Instr) (s : State) : ReportsPin ch s (effectOf i s) := by
  cases i with
  | sample raw => exact sampleEffect_reportsPin ch raw s
  | tick => exact tickEffect_reportsPin ch s
  | arm c act inact => exact armThen_reportsPin ch c act inact s fun _ => ⟨rfl, rfl⟩
  | poll c => exact .of_silentOn (.emit s rfl) rfl
  | step => exact schedEffect_reportsPin ch s

/-- Settles O26: the counter is written by `setCounter` alone, once at most in an operation and never to its old value. -/
theorem counterRecordsExactlyOnChange : Obligations.CounterRecordsExactlyOnChange := by
  intro i s t hexec
  obtain ⟨-, rfl⟩ := (exec_next_iff i s t).1 hexec
  exact effectOf_reportsCounter i s

/-- Settles O27: each pin is written by its own `setPin` alone, once at most in an operation. -/
theorem pinRecordsExactlyOnChange : Obligations.PinRecordsExactlyOnChange := by
  intro i s t ch hexec
  obtain ⟨-, rfl⟩ := (exec_next_iff i s t).1 hexec
  exact effectOf_reportsPin ch i s

end Sys2Proof.Machine
end

section
/-! One decoder invocation written out: the sum and its thresholds, the records, and the callbacks (R102 to R112). -/

namespace Sys2Proof.Machine

/-- Settles O14: an operation on an unfaulted block ends in its effect. -/
theorem everyOperationCompletesUnfaulted : Obligations.EveryOperationCompletesUnfaulted := fun i s h =>
  ⟨effectOf i s, (exec_next_iff i s _).2 ⟨h, rfl⟩⟩

/-- Settles O18, entry by entry. -/
theorem transitionTableEntries : Obligations.TransitionTableEntries := by
  unfold Obligations.TransitionTableEntries
  decide

/-! ### The callbacks -/

theorem cwCallback_of_below {s : State} (hwired : s.cfg.cwWired = true) (hlt : s.counter.toInt < s.cfg.counterLimit) :
    cwCallback s = setCounter (s.counter + 1) s :=
  if_pos (by rw [hwired, belowLimit, decide_eq_true hlt]; rfl)

theorem cwCallback_of_not {s : State} (h : s.cfg.cwWired = false ∨ s.cfg.counterLimit ≤ s.counter.toInt) :
    cwCallback s = s := by
  refine if_neg fun hb => ?_
  simp only [belowLimit, Bool.and_eq_true, decide_eq_true_eq] at hb
  rcases h with hwired | hle
  · exact absurd hb.1 (by simp [hwired])
  · omega

theorem ccwCallback_of_above {s : State} (hwired : s.cfg.ccwWired = true)
    (hlt : -(s.cfg.counterLimit : Int) < s.counter.toInt) : ccwCallback s = setCounter (s.counter - 1) s :=
  if_pos (by rw [hwired, aboveLimit, decide_eq_true hlt]; rfl)

theorem ccwCallback_of_not {s : State} (h : s.cfg.ccwWired = false ∨ s.counter.toInt ≤ -(s.cfg.counterLimit : Int)) :
    ccwCallback s = s := by
  refine if_neg fun hb => ?_
  simp only [aboveLimit, Bool.and_eq_true, decide_eq_true_eq] at hb
  rcases h with hwired | hle
  · exact absurd hb.1 (by simp [hwired])
  · omega

/-- Settles O20: each callback is one guarded `setCounter`. -/
theorem callbacksAreClamped : Obligations.CallbacksAreClamped := fun _ =>
  ⟨cwCallback_of_below, cwCallback_of_not, ccwCallback_of_above, ccwCallback_of_not⟩

theorem cwCallback_silentOn {k : TraceRecord → Bool} (hk : ∀ v, k (.counter v) = false) (s : State) :
    SilentOn k s (cwCallback s) := by
  rcases cwCallback_cases s with e | ⟨-, e⟩ <;> rw [e]
  · exact .refl k s
  · exact setCounter_silentOn hk _ s

theorem ccwCallback_silentOn {k : TraceRecord → Bool} (hk : ∀ v, k (.counter v) = false) (s : State) :
    SilentOn k s (ccwCallback s) := by
  rcases ccwCallback_cases s with e | ⟨-, e⟩ <;> rw [e]
  · exact .refl k s
  · exact setCounter_silentOn hk _ s

/-! ### One invocation, by the thresholds -/

/-- The history a SAMPLE leaves (R102, R103). -/
def nextHistory (raw : U2) (s : State) : U4 := s.hist.extractLsb' 0 2 ++ normalise raw

/-- The sum a SAMPLE compares with the thresholds (R105). -/
def nextSum (raw : U2) (s : State) : I8 := s.acc + delta (nextHistory raw s)

/-- The state at the threshold tests of a SAMPLE: the history shifted and the delta added (R103 to R105). -/
def accumulated (raw : U2) (s : State) : State := { s with hist := nextHistory raw s, acc := nextSum raw s }

theorem sampleEffect_eq_detentReset (raw : U2) (s : State) :
    sampleEffect raw s = detentReset (applyThresholds (accumulated raw s)) := rfl

theorem detentReset_of_acc_eq_zero {s : State} (h : s.acc = 0) : detentReset s = s := by
  unfold detentReset
  split
  · rw [← h]
  · rfl

section
variable {raw : U2} {s : State}

theorem sampleEffect_of_gt (h : 3 < (nextSum raw s).toInt) :
    sampleEffect raw s = { cwCallback (emit .evCw (accumulated raw s)) with acc := 0 } := by
  have hth : applyThresholds (accumulated raw s) = { cwCallback (emit .evCw (accumulated raw s)) with acc := 0 } := if_pos h
  rw [sampleEffect_eq_detentReset, hth, detentReset_of_acc_eq_zero rfl]

theorem sampleEffect_of_lt (h : (nextSum raw s).toInt < -3) :
    sampleEffect raw s = { ccwCallback (emit .evCcw (accumulated raw s)) with acc := 0 } := by
  have hth : applyThresholds (accumulated raw s) = { ccwCallback (emit .evCcw (accumulated raw s)) with acc := 0 } :=
    (if_neg (show ¬ 3 < (nextSum raw s).toInt by omega)).trans (if_pos h)
  rw [sampleEffect_eq_detentReset, hth, detentReset_of_acc_eq_zero rfl]

/-- Between the thresholds a SAMPLE moves the history and the accumulator, and emits nothing. -/
theorem sampleEffect_of_within (hlow : -3 ≤ (nextSum raw s).toInt) (hhigh : (nextSum raw s).toInt ≤ 3) :
    sampleEffect raw s = { s with
      hist := nextHistory raw s
      acc := if restNow s.cfg.detentRule (nextHistory raw s) then 0 else nextSum raw s } := by
  have hth : applyThresholds (accumulated raw s) = accumulated raw s :=
    (if_neg (show ¬ 3 < (nextSum raw s).toInt by omega)).trans
      (if_neg (show ¬ (nextSum raw s).toInt < -3 by omega))
  rw [sampleEffect_eq_detentReset, hth]
  unfold detentReset
  change (if restNow s.cfg.detentRule (nextHistory raw s) = true then _ else _) = _
  split <;> rfl

end

theorem detentReset_hist (s : State) : (detentReset s).hist = s.hist := by
  unfold detentReset
  split <;> rfl

theorem sampleEffect_hist (raw : U2) (s : State) : (sampleEffect raw s).hist = nextHistory raw s :=
  (detentReset_hist _).trans (congrArg State.hist (applyThresholds_eq (accumulated raw s)))

theorem sampleEffect_levels (raw : U2) (s : State) : (sampleEffect raw s).hist.extractLsb' 0 2 = normalise raw := by
  rw [sampleEffect_hist, nextHistory, BitVec.extractLsb'_append_eq_right]

/-- An event of a SAMPLE and its callback, which moves the counter to `v` or does nothing. -/
theorem eventAndCallback_eq (raw : U2) (s : State) (e : TraceRecord) (moves : Bool) (v : I8) :
    { (if moves then setCounter v (emit e (accumulated raw s)) else emit e (accumulated raw s)) with acc := 0 } =
      { s with
        hist := nextHistory raw s
        acc := 0
        counter := if moves then v else s.counter
        trace := s.trace ++ [e] ++ if moves then [.counter (if moves then v else s.counter)] else [] } := by
  cases moves
  · simp only [Bool.false_eq_true, if_false, List.append_nil]
    rfl
  · rfl

/-- Settles O19, by the sum's place: above the thresholds, below them, or between. -/
theorem sampleRunsTheDecoder : Obligations.SampleRunsTheDecoder := by
  intro raw s hs h sum cw ccw up down rest counter'
  rw [exec_eq_completes, completes_of_unfaulted _ hs]
  refine congrArg Host.Outcome.next (?_ : sampleEffect raw s = _)
  by_cases hgt : 3 < sum.toInt
  · have hcw : cw = true := decide_eq_true hgt
    have hccw : ccw = false := decide_eq_false (by omega)
    have hdown : down = false := by simp only [down, hccw, Bool.false_and]
    have hcall : cwCallback (emit .evCw (accumulated raw s)) =
        if up then setCounter (s.counter + 1) (emit .evCw (accumulated raw s)) else emit .evCw (accumulated raw s) := by
      simp only [up, hcw, Bool.true_and]
      rfl
    rw [sampleEffect_of_gt hgt, hcall, eventAndCallback_eq]
    simp only [counter', hcw, hdown, Bool.true_or, Bool.or_false, Bool.false_eq_true, if_true, if_false]
    rfl
  · by_cases hlt : sum.toInt < -3
    · have hcw : cw = false := decide_eq_false hgt
      have hccw : ccw = true := decide_eq_true hlt
      have hup : up = false := by simp only [up, hcw, Bool.false_and]
      have hcall : ccwCallback (emit .evCcw (accumulated raw s)) =
          if down then setCounter (s.counter - 1) (emit .evCcw (accumulated raw s))
          else emit .evCcw (accumulated raw s) := by
        simp only [down, hccw, Bool.true_and]
        rfl
      rw [sampleEffect_of_lt hlt, hcall, eventAndCallback_eq]
      simp only [counter', hcw, hccw, hup, Bool.false_or, Bool.true_or, Bool.false_eq_true, if_true, if_false]
      rfl
    · have hcw : cw = false := decide_eq_false hgt
      have hccw : ccw = false := decide_eq_false hlt
      have hup : up = false := by simp only [up, hcw, Bool.false_and]
      have hdown : down = false := by simp only [down, hccw, Bool.false_and]
      have hrest : restNow s.cfg.detentRule h = rest := by
        unfold rest restNow
        cases s.cfg.detentRule <;> rfl
      rw [sampleEffect_of_within (Int.not_lt.1 hlt) (Int.not_lt.1 hgt), ← hrest]
      simp only [counter', hcw, hccw, hdown, hup, Bool.or_false, Bool.false_or, Bool.false_eq_true, if_false,
        List.append_nil]
      rfl

/-- Settles O21: the written-out effect reads the four fields alone, and appends to the trace. -/
theorem sampleIsAFunctionOfTheDecoderState : Obligations.SampleIsAFunctionOfTheDecoderState := by
  intro raw s s' t t' hcfg hhist hacc hcounter hexec hexec'
  obtain ⟨hs, rfl⟩ := (exec_next_iff _ s t).1 hexec
  obtain ⟨hs', rfl⟩ := (exec_next_iff _ s' t').1 hexec'
  have ht := Host.Outcome.next.inj (hexec.symm.trans (sampleRunsTheDecoder raw s hs))
  have ht' := Host.Outcome.next.inj (hexec'.symm.trans (sampleRunsTheDecoder raw s' hs'))
  rw [hcfg, hhist, hacc, hcounter] at ht'
  refine ⟨?_, ?_, ?_, ?_, sampleEffect_eq raw s⟩
  · rw [ht, ht']
  · rw [ht, ht']
  · rw [ht, ht']
  · rw [ht, ht']
    exact ⟨_, List.append_assoc .., List.append_assoc ..⟩

/-! ### The events a SAMPLE fires -/

/-- The events appended from `s` to `t` are `es`, in order. -/
def Fires (es : List TraceRecord) (s t : State) : Prop := ∃ rs, Appends s t rs ∧ rs.filter isEvent = es

theorem Fires.of_trace_eq {s t : State} (h : t.trace = s.trace) : Fires [] s t := SilentOn.of_trace_eq h

theorem Fires.emit {e : TraceRecord} (he : isEvent e = true) (s : State) : Fires [e] s (emit e s) :=
  ⟨[e], rfl, by rw [List.filter_singleton, he]; rfl⟩

theorem Fires.trans {es es' : List TraceRecord} {s t u : State} (h : Fires es s t) (h' : Fires es' t u) :
    Fires (es ++ es') s u := by
  obtain ⟨rs, ht, rfl⟩ := h
  obtain ⟨rs', hu, rfl⟩ := h'
  exact ⟨rs ++ rs', by rw [Appends, hu, ht, List.append_assoc], List.filter_append ..⟩

/-- The events a sum fires (R105, R106). -/
def thresholdEvents (sum : I8) : List TraceRecord :=
  if 3 < sum.toInt then [.evCw] else if sum.toInt < -3 then [.evCcw] else []

theorem thresholdEvents_eq_nil {sum : I8} (hlow : -3 ≤ sum.toInt) (hhigh : sum.toInt ≤ 3) : thresholdEvents sum = [] := by
  rw [thresholdEvents, if_neg (by omega), if_neg (by omega)]

/-- A SAMPLE fires the events of its sum; the callback's COUNTER record is none. -/
theorem sampleEffect_fires (raw : U2) (s : State) :
    Fires (thresholdEvents (nextSum raw s)) s (sampleEffect raw s) := by
  unfold thresholdEvents
  split
  · next hgt =>
    rw [sampleEffect_of_gt hgt]
    exact Fires.trans (es' := []) (.emit rfl (accumulated raw s)) (cwCallback_silentOn (fun _ => rfl) _)
  · split
    · next hlt =>
      rw [sampleEffect_of_lt hlt]
      exact Fires.trans (es' := []) (.emit rfl (accumulated raw s)) (ccwCallback_silentOn (fun _ => rfl) _)
    · rw [sampleEffect_of_within (by omega) (by omega)]
      exact .of_trace_eq rfl

/-- After an event the accumulator is 0 (R105, R106). -/
theorem sampleEffect_acc_of_event {raw : U2} {s : State} (h : thresholdEvents (nextSum raw s) ≠ []) :
    (sampleEffect raw s).acc = 0 := by
  by_cases hgt : 3 < (nextSum raw s).toInt
  · rw [sampleEffect_of_gt hgt]
  · by_cases hlt : (nextSum raw s).toInt < -3
    · rw [sampleEffect_of_lt hlt]
    · exact absurd (thresholdEvents_eq_nil (by omega) (by omega)) h

theorem thresholdEvents_length_le (sum : I8) : (thresholdEvents sum).length ≤ 1 := by
  unfold thresholdEvents
  split
  · exact le_rfl
  · split
    · exact le_rfl
    · exact zero_le_one

/-- Settles O22: the events are those of the sum, which is past one threshold at most. -/
theorem sampleFiresAtMostOneCallback : Obligations.SampleFiresAtMostOneCallback := by
  intro raw s t hexec
  obtain ⟨-, rfl⟩ := (exec_next_iff _ s t).1 hexec
  obtain ⟨rs, ht, hrs⟩ := sampleEffect_fires raw s
  exact ⟨rs, ht, by rw [List.countP_eq_length_filter, hrs]; exact thresholdEvents_length_le _⟩

end Sys2Proof.Machine
end

section
/-! Runs of SAMPLEs: clicks (R114) and glitches (R113). -/

namespace Sys2Proof.Machine

/-! ### Runs of operations -/

theorem runOps_cons_of_unfaulted {s : State} (h : s.fault = 0) (i : Instr) (rest : List Instr) :
    runOps (i :: rest) s = runOps rest (effectOf i s) := by
  simp only [runOps, exec_eq_completes, completes_of_unfaulted _ h]

theorem runOps_append {xs ys : List Instr} {s t : State} (h : runOps xs s = .next t) :
    runOps (xs ++ ys) s = runOps ys t := by
  induction xs generalizing s with
  | nil => rw [List.nil_append, Host.Outcome.next.inj h]
  | cons i xs ih =>
    simp only [runOps, List.cons_append] at h ⊢
    split at h
    · exact ih h
    · cases h
    · cases h

theorem runOps_two_samples {s : State} (h : s.fault = 0) (y x : U2) :
    runOps [.sample y, .sample x] s = .next (sampleEffect x (sampleEffect y s)) := by
  have hy : (effectOf (.sample y) s).fault = 0 := (sampleEffect_fault y s).trans h
  rw [runOps_cons_of_unfaulted h, runOps_cons_of_unfaulted hy]
  rfl

/-! ### Clicks -/

/-- Unfaulted, with the accumulator at 0 and the lines at rest. -/
structure AtRest (s : State) : Prop where
  unfaulted : s.fault = 0
  acc : s.acc = 0
  levels : s.hist.extractLsb' 0 2 = 0

/-- Samples that go around from rest in the direction `d`, the fourth one back to rest. -/
structure IsClick (r₁ r₂ r₃ : U2) (d : I8) : Prop where
  unit : d = 1 ∨ d = -1
  first : delta (0#2 ++ normalise r₁) = d
  second : delta (normalise r₁ ++ normalise r₂) = d
  third : delta (normalise r₂ ++ normalise r₃) = d
  fourth : delta (normalise r₃ ++ normalise 0b11) = d
  away₁ : normalise r₁ ≠ 0
  away₂ : normalise r₂ ≠ 0
  away₃ : normalise r₃ ≠ 0

theorem clickCw_isClick : IsClick 0b01 0b00 0b10 1 := by constructor <;> decide

theorem clickCcw_isClick : IsClick 0b10 0b00 0b01 (-1) := by constructor <;> decide

theorem restNow_of_away (rule : DetentRule) (x : U2) : ∀ y : U2, y ≠ 0 → restNow rule (x ++ y) = false := by
  cases rule <;> revert x <;> decide

/-- A run may begin with a sample away from rest, between the thresholds. -/
theorem runOps_sample_away {raw x : U2} {s : State} {a : I8} (rest : List Instr) (hs : s.fault = 0)
    (hx : s.hist.extractLsb' 0 2 = x) (haway : normalise raw ≠ 0) (ha : s.acc + delta (x ++ normalise raw) = a)
    (hlow : -3 ≤ a.toInt) (hhigh : a.toInt ≤ 3) :
    runOps (.sample raw :: rest) s = runOps rest { s with hist := x ++ normalise raw, acc := a } := by
  subst hx ha
  have heffect : effectOf (.sample raw) s = { s with
      hist := nextHistory raw s
      acc := if restNow s.cfg.detentRule (nextHistory raw s) then 0 else nextSum raw s } :=
    sampleEffect_of_within hlow hhigh
  rw [runOps_cons_of_unfaulted hs, heffect, nextHistory, restNow_of_away _ _ _ haway]
  rfl

theorem IsClick.firstThree {r₁ r₂ r₃ : U2} {d : I8} (h : IsClick r₁ r₂ r₃ d) {s : State} (hs : AtRest s) :
    runOps [.sample r₁, .sample r₂, .sample r₃] s =
      .next { s with hist := normalise r₂ ++ normalise r₃, acc := d + d + d } := by
  have hbounds : (-3 ≤ d.toInt ∧ d.toInt ≤ 3) ∧ (-3 ≤ (d + d).toInt ∧ (d + d).toInt ≤ 3) ∧
      -3 ≤ (d + d + d).toInt ∧ (d + d + d).toInt ≤ 3 := by
    rcases h.unit with rfl | rfl <;> decide
  obtain ⟨⟨low₁, high₁⟩, ⟨low₂, high₂⟩, low₃, high₃⟩ := hbounds
  have hfirst : s.acc + delta (0#2 ++ normalise r₁) = d := by rw [hs.acc, h.first, zero_add]
  calc runOps [.sample r₁, .sample r₂, .sample r₃] s
    _ = runOps [.sample r₂, .sample r₃] { s with hist := 0#2 ++ normalise r₁, acc := d } :=
      runOps_sample_away _ hs.unfaulted hs.levels h.away₁ hfirst low₁ high₁
    _ = runOps [.sample r₃] { s with hist := normalise r₁ ++ normalise r₂, acc := d + d } :=
      runOps_sample_away _ hs.unfaulted BitVec.extractLsb'_append_eq_right h.away₂ (congrArg (d + ·) h.second)
        low₂ high₂
    _ = .next { s with hist := normalise r₂ ++ normalise r₃, acc := d + d + d } :=
      runOps_sample_away [] hs.unfaulted BitVec.extractLsb'_append_eq_right h.away₃ (congrArg (d + d + ·) h.third)
        low₃ high₃

/-- A click from rest fires the event of four deltas in its direction and ends at rest. -/
theorem IsClick.fires {r₁ r₂ r₃ : U2} {d : I8} (h : IsClick r₁ r₂ r₃ d) {e : TraceRecord}
    (he : thresholdEvents (d + d + d + d) = [e]) {s : State} (hs : AtRest s) :
    ∃ t, runOps [.sample r₁, .sample r₂, .sample r₃, .sample 0b11] s = .next t ∧ AtRest t ∧ Fires [e] s t := by
  let u : State := { s with hist := normalise r₂ ++ normalise r₃, acc := d + d + d }
  have hevents : thresholdEvents (nextSum 0b11 u) = [e] := by
    rw [nextSum, nextHistory, BitVec.extractLsb'_append_eq_right, h.fourth, he]
  refine ⟨sampleEffect 0b11 u, ?_, ⟨?_, ?_, sampleEffect_levels ..⟩, ?_⟩
  · exact (runOps_append (ys := [.sample 0b11]) (h.firstThree hs)).trans (runOps_cons_of_unfaulted (s := u) hs.unfaulted ..)
  · exact (sampleEffect_fault ..).trans hs.unfaulted
  · exact sampleEffect_acc_of_event (by rw [hevents]; exact List.cons_ne_nil e [])
  · exact hevents ▸ sampleEffect_fires 0b11 u

/-- What a run from rest back to rest fires once, `n` of it fire `n` times. -/
theorem runOps_replicate_fires {ops : List Instr} {e : TraceRecord}
    (hops : ∀ s, AtRest s → ∃ t, runOps ops s = .next t ∧ AtRest t ∧ Fires [e] s t) (n : Nat) {s : State} (hs : AtRest s) :
    ∃ t, runOps (List.replicate n ops).flatten s = .next t ∧ AtRest t ∧ Fires (List.replicate n e) s t := by
  induction n generalizing s with
  | zero => exact ⟨s, rfl, hs, .of_trace_eq rfl⟩
  | succ n ih =>
    obtain ⟨u, hu, hrest, hfires⟩ := hops s hs
    obtain ⟨t, ht, hrest', hfires'⟩ := ih hrest
    exact ⟨t, (runOps_append hu).trans ht, hrest', hfires.trans hfires'⟩

theorem count_of_filter {e : TraceRecord} {rs es : List TraceRecord} (h : rs.filter isEvent = es) (he : isEvent e = true) :
    rs.count e = es.count e := by
  rw [← h, List.count_filter he]

/-- `n` clicks fire their own event `n` times and no other event. -/
theorem clicks_count {ops : List Instr} {e e' : TraceRecord}
    (hops : ∀ s, AtRest s → ∃ t, runOps ops s = .next t ∧ AtRest t ∧ Fires [e] s t) (he : isEvent e = true)
    (he' : isEvent e' = true) (hne : e ≠ e') (n : Nat) {s : State} (hs : AtRest s) :
    ∃ t rs, runOps (List.replicate n ops).flatten s = .next t ∧ Appends s t rs ∧
      rs.count e = n ∧ rs.count e' = 0 ∧ t.acc = 0 ∧ t.hist.extractLsb' 0 2 = 0 := by
  obtain ⟨t, ht, hrest, rs, happ, hrs⟩ := runOps_replicate_fires hops n hs
  refine ⟨t, rs, ht, happ, ?_, ?_, hrest.acc, hrest.levels⟩
  · rw [count_of_filter hrs he, List.count_replicate_self]
  · rw [count_of_filter hrs he', List.count_replicate, if_neg (by simpa using hne)]

/-- Settles O23: a click is three samples below the threshold and a fourth past it, back at rest for the next. -/
theorem clickFiresItsEventOnce : Obligations.ClickFiresItsEventOnce := by
  intro s hfault hacc hlevels
  have hs : AtRest s := ⟨hfault, hacc, hlevels⟩
  refine ⟨⟨_, clickCw_isClick.firstThree hs, rfl⟩, ⟨_, clickCcw_isClick.firstThree hs, rfl⟩, fun n => ?_, fun n => ?_⟩
  · exact clicks_count (fun _ => clickCw_isClick.fires rfl) rfl rfl (by decide) n hs
  · exact clicks_count (fun _ => clickCcw_isClick.fires rfl) rfl rfl (by decide) n hs

/-! ### Glitches -/

/-- The table is antisymmetric: a change and its return have opposite deltas. -/
theorem delta_swap (x y : U2) : delta (y ++ x) = -delta (x ++ y) := by
  revert x y
  decide

theorem delta_of_both_lines (x y : U2) : x ^^^ y = 0b11#2 → delta (x ++ y) = 0 := by
  revert x y
  decide

theorem delta_of_no_line (x : U2) : delta (x ++ x) = 0 := by
  revert x
  decide

theorem delta_bounds (h : U4) : -1 ≤ (delta h).toInt ∧ (delta h).toInt ≤ 1 := by
  revert h
  decide

theorem normalise_xor_normalise (x y : U2) : normalise x ^^^ normalise y = x ^^^ y := by
  revert x y
  decide

theorem restNow_fullHistory_of_ne (x y : U2) : x ≠ y → restNow .fullHistory (normalise x ++ normalise y) = false := by
  revert x y
  decide

theorem toInt_add_delta {acc : I8} (hlow : -4 ≤ acc.toInt) (hhigh : acc.toInt ≤ 4) (h : U4) :
    (acc + delta h).toInt = acc.toInt + (delta h).toInt := by
  obtain ⟨low, high⟩ := delta_bounds h
  rw [BitVec.toInt_add]
  exact Int.bmod_eq_of_le (by omega) (by omega)

/-- `t` has the trace and the counter of `s`, and under FULL_HISTORY the accumulator `a`. -/
structure QuietTo (a : I8) (s t : State) : Prop where
  trace : t.trace = s.trace
  counter : t.counter = s.counter
  acc : s.cfg.detentRule = .fullHistory → t.acc = a

/-- A changed pair of levels, between the thresholds. -/
theorem sampleEffect_quietTo {x y : U2} {s : State} {a : I8} (hx : s.hist.extractLsb' 0 2 = normalise x) (hne : x ≠ y)
    (ha : s.acc + delta (normalise x ++ normalise y) = a) (hlow : -3 ≤ a.toInt) (hhigh : a.toInt ≤ 3) :
    QuietTo a s (sampleEffect y s) ∧ ((sampleEffect y s).acc = a ∨ (sampleEffect y s).acc = 0) := by
  have hnext : nextHistory y s = normalise x ++ normalise y := by rw [nextHistory, hx]
  have hsum : nextSum y s = a := by rw [nextSum, hnext, ha]
  rw [sampleEffect_of_within (by rwa [hsum]) (by rwa [hsum]), hsum, hnext]
  refine ⟨⟨rfl, rfl, fun hrule => if_neg ?_⟩, ?_⟩
  · rw [hrule, restNow_fullHistory_of_ne x y hne]
    exact Bool.false_ne_true
  · exact (ite_eq_or_eq ..).symm

/-- A glitch that returns, from an accumulator within ±2: neither sample passes a threshold. -/
theorem glitch_quietTo {x y : U2} {s : State} (hx : s.hist.extractLsb' 0 2 = normalise x) (hne : x ≠ y)
    (hlow : -2 ≤ s.acc.toInt) (hhigh : s.acc.toInt ≤ 2) : QuietTo s.acc s (sampleEffect x (sampleEffect y s)) := by
  obtain ⟨low, high⟩ := delta_bounds (normalise x ++ normalise y)
  have hsum : (s.acc + delta (normalise x ++ normalise y)).toInt =
      s.acc.toInt + (delta (normalise x ++ normalise y)).toInt := toInt_add_delta (by omega) (by omega) _
  obtain ⟨hquiet, hacc⟩ := sampleEffect_quietTo hx hne rfl (by omega) (by omega)
  have hback : s.acc + delta (normalise x ++ normalise y) + delta (normalise y ++ normalise x) = s.acc := by
    rw [delta_swap (normalise x), add_neg_cancel_right]
  obtain ⟨low', high'⟩ := delta_bounds (normalise y ++ normalise x)
  have hbounds : -3 ≤ ((sampleEffect y s).acc + delta (normalise y ++ normalise x)).toInt ∧
      ((sampleEffect y s).acc + delta (normalise y ++ normalise x)).toInt ≤ 3 := by
    rcases hacc with hacc | hacc <;> rw [hacc]
    · rw [hback]
      omega
    · rw [zero_add]
      omega
  obtain ⟨hreturn, -⟩ := sampleEffect_quietTo (sampleEffect_levels y s) hne.symm rfl hbounds.1 hbounds.2
  refine ⟨hreturn.trace.trans hquiet.trace, hreturn.counter.trans hquiet.counter, fun hrule => ?_⟩
  rw [hreturn.acc (by rw [sampleEffect_cfg, hrule]), hquiet.acc hrule, hback]

theorem ne_of_xor_eq {x y v : U2} (h : x ^^^ y = v) (hv : v ≠ 0) : x ≠ y := by
  rintro rfl
  exact hv (h.symm.trans BitVec.xor_self)

theorem ne_of_delta_eq {x y : U2} {d : I8} (h : delta (normalise x ++ normalise y) = d) (hd : d ≠ 0) : x ≠ y := by
  rintro rfl
  exact hd (h.symm.trans (delta_of_no_line _))

/-- A glitch past a threshold fires its event alone; its return starts from 0. -/
theorem glitch_fires {x y : U2} {s : State} {d : I8} {e : TraceRecord} (hfault : s.fault = 0)
    (hx : s.hist.extractLsb' 0 2 = normalise x) (hdelta : delta (normalise x ++ normalise y) = d) (hd : d ≠ 0)
    (he : thresholdEvents (s.acc + d) = [e]) :
    ∃ t rs, runOps [.sample y, .sample x] s = .next t ∧ Appends s t rs ∧ rs.filter isEvent = [e] ∧
      (s.cfg.detentRule = .fullHistory → t.acc = -d) := by
  have hevents : thresholdEvents (nextSum y s) = [e] := by rw [nextSum, nextHistory, hx, hdelta, he]
  have hacc : (sampleEffect y s).acc = 0 := sampleEffect_acc_of_event (by rw [hevents]; exact List.cons_ne_nil e [])
  have hback : delta (normalise y ++ normalise x) = -d := by rw [delta_swap (normalise x), hdelta]
  have hsum : (sampleEffect y s).acc + delta (normalise y ++ normalise x) = -d := by rw [hacc, hback, zero_add]
  obtain ⟨low, high⟩ := delta_bounds (normalise y ++ normalise x)
  rw [hback] at low high
  obtain ⟨hreturn, -⟩ := sampleEffect_quietTo (sampleEffect_levels y s) (ne_of_delta_eq hdelta hd).symm hsum
    (by omega) (by omega)
  obtain ⟨rs, happ, hrs⟩ := (hevents ▸ sampleEffect_fires y s).trans (.of_trace_eq hreturn.trace)
  exact ⟨_, rs, runOps_two_samples hfault y x, happ, hrs, fun hrule => hreturn.acc (by rw [sampleEffect_cfg, hrule])⟩

/-- Settles O24: a glitch adds a delta and takes it back, so that an event needs a sum already at the threshold. -/
theorem glitchesFireNothing : Obligations.GlitchesFireNothing := by
  refine ⟨fun x y _ => ?_, delta_of_both_lines, fun s x y hfault hx => ?_⟩
  · rw [delta_swap x y, add_neg_cancel]
  refine ⟨fun hxy hlow hhigh => ?_, fun hxy hlow hhigh => ?_, fun hacc hdelta => ?_, fun hacc hdelta => ?_⟩
  · have hne : x ≠ y := hxy.elim (ne_of_xor_eq · (by decide)) (ne_of_xor_eq · (by decide))
    obtain ⟨htrace, hcounter, hacc⟩ := glitch_quietTo hx hne hlow hhigh
    exact ⟨_, runOps_two_samples hfault y x, htrace, hcounter, hacc⟩
  · have hsum : s.acc + delta (normalise x ++ normalise y) = s.acc := by
      rw [delta_of_both_lines _ _ ((normalise_xor_normalise x y).trans hxy), add_zero]
    obtain ⟨⟨htrace, hcounter, hacc⟩, -⟩ := sampleEffect_quietTo hx (ne_of_xor_eq hxy (by decide)) hsum hlow hhigh
    exact ⟨_, (exec_next_iff ..).2 ⟨hfault, rfl⟩, htrace, hcounter, hacc⟩
  · have hthree : s.acc = 3 := BitVec.eq_of_toInt_eq hacc
    obtain ⟨t, rs, hrun, happ, hrs, ht⟩ :=
      glitch_fires (e := .evCw) hfault hx hdelta (by decide) (by rw [hthree]; rfl)
    exact ⟨t, rs, hrun, happ, hrs, fun hrule => congrArg BitVec.toInt (ht hrule)⟩
  · have hthree : s.acc = -3 := BitVec.eq_of_toInt_eq hacc
    obtain ⟨t, rs, hrun, happ, hrs, ht⟩ :=
      glitch_fires (e := .evCcw) hfault hx hdelta (by decide) (by rw [hthree]; rfl)
    exact ⟨t, rs, hrun, happ, hrs, fun hrule => congrArg BitVec.toInt (ht hrule)⟩

end Sys2Proof.Machine
end

section
/-! A TICK as one unit sees it: what the other unit may do beside it, and what a TICK is where the other unit does nothing
(R122 to R125, R146). -/

namespace Sys2Proof.Machine

/-! ### The two units of a TICK -/

/-- A record that unit `ch` can append on a TICK: a PIN, MATCH or FINISHED record of its channel. -/
def ofUnit (ch : Channel) (r : TraceRecord) : Bool :=
  match r with
  | .pin c _ => c == ch
  | .compareMatch _ c _ => c == ch
  | .finished c => c == ch
  | _ => false

theorem ofUnit_of_isPinOf {ch : Channel} (r : TraceRecord) (h : isPinOf ch r = true) : ofUnit ch r = true := by
  cases r <;> simp_all [isPinOf, ofUnit]

theorem ofUnit_of_isMatchOf {p : Phase} {ch : Channel} (r : TraceRecord) (h : isMatchOf p ch r = true) :
    ofUnit ch r = true := by
  cases r <;> simp_all [isMatchOf, ofUnit]

/-- What unit `ch` can do on a TICK: it keeps to its own channel and its own records, and it starts no pulse. -/
structure UnitActs (ch : Channel) (s t : State) : Prop where
  frame : UnitFrame ch s t
  silent : SilentOn (ofUnit (otherChannel ch)) s t
  staysIdle : inFlight s ch = false → inFlight t ch = false

theorem UnitActs.refl (ch : Channel) (s : State) : UnitActs ch s s := ⟨.refl ch s, .refl _ s, id⟩

theorem UnitActs.trans {ch : Channel} {s t u : State} (h : UnitActs ch s t) (h' : UnitActs ch t u)
    (hf : inFlight t ch = inFlight s ch) : UnitActs ch s u :=
  ⟨h.frame.trans' h'.frame hf, h.silent.trans h'.silent, fun hi => h'.staysIdle (hf.trans hi)⟩

theorem consumeSkip_acts (ch : Channel) (s : State) : UnitActs ch s (consumeSkip ch s) :=
  ⟨consumeSkip_frame ch s, .of_trace_eq (consumeSkip_trace_pin ch s).1, (inFlight_consumeSkip ch s).trans⟩

/-- An idle unit's service is its output action alone (R122). -/
theorem serviceMatch_of_idle {ch : Channel} {s : State} (h : inFlight s ch = false) :
    serviceMatch ch s = outputAction ch s := by
  have hf : inFlight (outputAction ch s) ch = false := by rw [outputAction_eq]; exact h
  rw [serviceMatch, interruptOnMatch, hf]
  rfl

theorem serviceMatch_acts (ch : Channel) (s : State) : UnitActs ch s (serviceMatch ch s) where
  frame := serviceMatch_frame ch s
  silent := by
    have hne : (ch == otherChannel ch) = false := beq_eq_false_iff_ne.2 (otherChannel_ne ch).symm
    exact serviceMatch_silentOn (fun _ => hne) (fun _ _ => hne) hne s
  staysIdle h := by rw [serviceMatch_of_idle h, outputAction_eq]; exact h

theorem servicedIf_acts (b : Bool) (ch : Channel) (s : State) :
    UnitActs ch s (if b then serviceMatch ch s else s) := by
  cases b
  · exact .refl ch s
  · exact serviceMatch_acts ch s

theorem UnitFrame.otherCompare {ch : Channel} {s t : State} (h : UnitFrame ch s t) :
    atCompare t (otherChannel ch) = atCompare s (otherChannel ch) ∧
      cmpOf t (otherChannel ch) = cmpOf s (otherChannel ch) :=
  ⟨by rw [atCompare, h.tcnt, h.otherCmp, atCompare], h.otherCmp⟩

/-- Each unit's missed match is consumed from its own unit alone (R124; log entry 17). -/
theorem consumeSkip_comm (s : State) : consumeSkip .b (consumeSkip .a s) = consumeSkip .a (consumeSkip .b s) := by
  obtain ⟨hat, hcmp⟩ := (consumeSkip_frame .b s).otherCompare
  obtain ⟨hat', hcmp'⟩ := (consumeSkip_frame .a s).otherCompare
  rw [otherChannel_b] at hat hcmp
  rw [otherChannel_a] at hat' hcmp'
  rw [consumeSkip, hat', hcmp', consumeSkip.eq_def .a (consumeSkip .b s), hat, hcmp]
  unfold consumeSkip
  split <;> split <;> rfl

/-- A running TICK around unit `ch`: the other unit acts before it or after it, and in between unit `ch` is serviced if it
matches (R122, R125). -/
theorem tickEffect_around (ch : Channel) {s : State} (h : s.running = true) :
    ∃ u, UnitActs (otherChannel ch) (consumeSkip ch (advanceTimer s)) u ∧
      UnitActs (otherChannel ch) (if matchesNow (advanceTimer s) ch then serviceMatch ch u else u) (tickEffect s) := by
  rw [tick_running h, serviceUnits]
  cases ch with
  | a => exact ⟨_, consumeSkip_acts .b _, servicedIf_acts _ .b _⟩
  | b =>
    rw [consumeSkip_comm]
    exact ⟨_, (consumeSkip_acts .a _).trans (servicedIf_acts _ .a _) (inFlight_consumeSkip .a _), .refl .a _⟩

/-- A running TICK moves the position by one and keeps the timer's owner (R123). -/
theorem tickEffect_tcnt_owner {s : State} (h : s.running = true) :
    (tickEffect s).tcnt = s.tcnt + 1 ∧ (tickEffect s).owner = s.owner := by
  obtain ⟨u, hbefore, hafter⟩ := tickEffect_around .a h
  have hskip := consumeSkip_frame .a (advanceTimer s)
  have hserviced := (servicedIf_acts (matchesNow (advanceTimer s) .a) .a u).frame
  constructor
  · calc (tickEffect s).tcnt = _ := hafter.frame.tcnt
      _ = u.tcnt := hserviced.tcnt
      _ = _ := hbefore.frame.tcnt
      _ = (advanceTimer s).tcnt := hskip.tcnt
  · calc (tickEffect s).owner = _ := hafter.frame.owner
      _ = u.owner := hserviced.owner
      _ = _ := hbefore.frame.owner
      _ = (advanceTimer s).owner := hskip.owner

/-- A unit at its compare value matches where its `skip` is clear, and then consumes nothing (R124). -/
theorem matchesNow_advanced {s : State} {ch : Channel} (hreached : (cmpOf s ch).ocr = s.tcnt + 1)
    (hskip : (cmpOf s ch).skip = false) : matchesNow (advanceTimer s) ch = true := by
  have hat : atCompare (advanceTimer s) ch = true := beq_iff_eq.2 hreached.symm
  rw [matchesNow, hat, show (cmpOf (advanceTimer s) ch).skip = false from hskip]
  rfl

theorem consumeSkip_advanced {s : State} {ch : Channel} (hskip : (cmpOf s ch).skip = false) :
    consumeSkip ch (advanceTimer s) = advanceTimer s :=
  consumeSkip_of_not (.inr hskip)

theorem exec_tick_of_unfaulted {s : State} (h : s.fault = 0) : exec .tick s = .next (tickEffect s) :=
  completes_of_unfaulted _ h

/-- Settles O28: the units leave the position and the timer's owner alone, and what is outside the engine. -/
theorem timerCountsWhileItRuns : Obligations.TimerCountsWhileItRuns := by
  intro s hfault
  refine ⟨fun hrun => ?_, fun hstop => by rw [exec_tick_of_unfaulted hfault, tick_stopped hstop]⟩
  obtain ⟨rs, hrs, -⟩ := tickEffect_reportsCounter s
  obtain ⟨htcnt, howner⟩ := tickEffect_tcnt_owner hrun
  obtain ⟨hcfg, hhist, hacc, hcounter, hsched, hfaultKept, hinput⟩ := tickEffect_outsideKept s
  refine ⟨tickEffect s, rs, exec_tick_of_unfaulted hfault, ?_, ?_⟩
  · rw [htcnt, BitVec.toNat_add]; rfl
  · exact State.ext hcfg hhist hacc hcounter rfl rfl howner rfl rfl rfl hsched hfaultKept hrs hinput rfl

/-- Settles O37: no bit of `skip` is consumed, so the TICK is A's service and then B's, and each appends its own records
alone. -/
theorem unitAIsServicedFirst : Obligations.UnitAIsServicedFirst := by
  intro s hfault hrun hreachedA hskipA hreachedB hskipB
  have htick : tickEffect s = serviceMatch .b (serviceMatch .a (advanceTimer s)) := by
    rw [tick_running hrun, serviceUnits, consumeSkip_advanced hskipA, consumeSkip_advanced hskipB,
      matchesNow_advanced hreachedA hskipA, matchesNow_advanced hreachedB hskipB]
    rfl
  have hnone : ∀ ch (rs : List TraceRecord), rs.filter (ofUnit ch) = [] →
      ∀ r ∈ rs, isPinOf ch r = false ∧ ∀ p, isMatchOf p ch r = false := by
    intro ch rs hrs r hr
    have hother := List.filter_eq_nil_iff.1 hrs r hr
    exact ⟨Bool.eq_false_iff.2 fun h => hother (ofUnit_of_isPinOf r h),
      fun _ => Bool.eq_false_iff.2 fun h => hother (ofUnit_of_isMatchOf r h)⟩
  obtain ⟨ra, hra, hraB⟩ := (serviceMatch_acts .a (advanceTimer s)).silent
  obtain ⟨rb, hrb, hrbA⟩ := (serviceMatch_acts .b (serviceMatch .a (advanceTimer s))).silent
  refine ⟨_, exec_tick_of_unfaulted hfault, htick, ra, rb, ?_, hra, hnone .b ra hraB, hnone .a rb hrbA⟩
  rw [Appends, htick, hrb, hra, List.append_assoc]
  rfl

/-! ### A TICK on which the other unit does nothing -/

/-- Where the other unit is quiet, a TICK is what unit `ch` does (R122). -/
theorem tick_of_otherQuiet {s : State} {ch : Channel} (hrun : s.running = true)
    (hquiet : QuietUnit s (otherChannel ch)) :
    tickEffect s = if matchesNow (advanceTimer s) ch then serviceMatch ch (consumeSkip ch (advanceTimer s))
      else consumeSkip ch (advanceTimer s) := by
  have hother := consumeSkip_quiet hquiet
  rw [tick_running hrun, serviceUnits]
  cases ch with
  | a =>
    rw [consumeSkip_comm, show consumeSkip .b (advanceTimer s) = _ from hother]
    have hskip := consumeSkip_frame .a (advanceTimer s)
    have hserviced := (servicedIf_acts (matchesNow (advanceTimer s) .a) .a (consumeSkip .a (advanceTimer s))).frame
    exact serviceMatch_quiet hquiet (hserviced.otherCmp.trans hskip.otherCmp) (hserviced.otherPin.trans hskip.otherPin)
  | b =>
    rw [show consumeSkip .a (advanceTimer s) = _ from hother]
    have hskip := consumeSkip_frame .b (advanceTimer s)
    exact congrArg (fun u => if matchesNow (advanceTimer s) .b then serviceMatch .b u else u)
      (serviceMatch_quiet hquiet hskip.otherCmp hskip.otherPin)

/-- The same where unit `ch` matches: the TICK is its service (R122, R124). -/
theorem tick_match_of_otherQuiet {s : State} {ch : Channel} (hrun : s.running = true)
    (hreached : (cmpOf s ch).ocr = s.tcnt + 1) (hskip : (cmpOf s ch).skip = false)
    (hquiet : QuietUnit s (otherChannel ch)) : tickEffect s = serviceMatch ch (advanceTimer s) := by
  rw [tick_of_otherQuiet hrun hquiet, matchesNow_advanced hreached hskip, consumeSkip_advanced hskip]
  rfl

/-- Settles O29: the other unit is quiet, and so is the one left. -/
theorem tickWithQuietUnitsOnlyCounts : Obligations.TickWithQuietUnitsOnlyCounts := by
  intro s hfault hrun ha hb
  rw [exec_tick_of_unfaulted hfault, tick_of_otherQuiet (ch := .a) hrun hb, consumeSkip_quiet ha]
  exact congrArg _ (serviceMatch_quiet ha rfl rfl)

/-- Settles O30: a set `skip` bit at the compare value is consumed, and there is no match. -/
theorem missedMatchOnlyClearsSkip : Obligations.MissedMatchOnlyClearsSkip := by
  intro s ch hfault hrun hreached hskip hquiet
  have hat : atCompare (advanceTimer s) ch = true := beq_iff_eq.2 hreached.symm
  have hset : (cmpOf (advanceTimer s) ch).skip = true := hskip
  rw [exec_tick_of_unfaulted hfault, tick_of_otherQuiet hrun hquiet, matchesNow, consumeSkip, hat, hset]
  rfl

/-- Settles O31: under the invariant an idle channel's unit at its compare value is quiet. -/
theorem idleUnitMatchChangesNothing : Obligations.IdleUnitMatchChangesNothing := by
  intro s ch hinv hidle
  have hpin := (hinv.engineInv.channel ch).idlePin hidle
  refine ⟨hpin, fun hfault hrun _ hskip hother => ?_⟩
  have hch : QuietUnit s ch := .inr ⟨hidle, hskip, .inr hpin⟩
  cases ch with
  | a => exact tickWithQuietUnitsOnlyCounts s hfault hrun hch hother
  | b => exact tickWithQuietUnitsOnlyCounts s hfault hrun hother hch

/-- Settles O32: the service of an idle unit is its output action. -/
theorem disabledUnitStillDrivesItsPin : Obligations.DisabledUnitStillDrivesItsPin := by
  intro s ch hfault hrun hidle hreached hskip hdrive hactive hquiet
  have hidle' : inFlight (advanceTimer s) ch = false := hidle
  have hdrive' : (cmpOf (advanceTimer s) ch).com = .driveInactive := hdrive
  have hactive' : pinOf (advanceTimer s) ch = .active := hactive
  rw [exec_tick_of_unfaulted hfault, tick_match_of_otherQuiet hrun hreached hskip hquiet, serviceMatch_of_idle hidle',
    outputAction_eq, if_pos hdrive', if_pos ⟨hdrive', hactive'⟩]
  rfl

/-! ### The handlers on a match -/

theorem exec_tick_of_soleMatch {s : State} {ch : Channel} (h : SoleMatch s ch) :
    exec .tick s = .next (handler (chanOf s ch).phase ch (matchedState s ch)) := by
  rw [exec_tick_of_unfaulted h.unfaulted, tick_soleMatch h]

/-- The ActiveStart decision by the remaining duration (R129 to R132). -/
theorem activeDecide_eq (ch : Channel) (s : State) :
    activeDecide ch s = if 256 * (chanOf s ch).aHi.toNat + (chanOf s ch).aLo.toNat ≤ 256 then
        programmed s ch { chanOf s ch with phase := .inactiveStart } (chanOf s ch).aLo .driveInactive
      else programmedForWrap s ch { chanOf s ch with aHi := (chanOf s ch).aHi - 1 } := by
  rw [activeDecide, activeFit_eq, activeChain_eq]
  exact if_congr (fits_iff ..) rfl rfl

theorem sub_ofNat_eq_ofNat_sub {d : U16} {n : Nat} (h : n ≤ d.toNat) :
    d - BitVec.ofNat 16 n = BitVec.ofNat 16 (d.toNat - n) := by
  have := d.isLt
  apply BitVec.eq_of_toNat_eq
  rw [BitVec.toNat_sub, BitVec.toNat_ofNat, BitVec.toNat_ofNat]
  omega

/-- The InactiveStart decision by the remaining duration (R133 to R135). -/
theorem inactiveStart_eq (ch : Channel) (s : State) :
    inactiveStart ch s = if (chanOf s ch).inact.toNat ≤ 256 - (chanOf s ch).aLo.toNat then
        programmed s ch { chanOf s ch with phase := .inactiveFinish } ((chanOf s ch).aLo + lo (chanOf s ch).inact)
          (cmpOf s ch).com
      else programmedForWrap s ch { chanOf s ch with
          phase := .inactiveContinue
          inact := BitVec.ofNat 16 ((chanOf s ch).inact.toNat - (256 - (chanOf s ch).aLo.toNat)) } := by
  rw [inactiveStart, inactiveFit_eq, inactiveOver_eq, ticksToWrap]
  split
  · rfl
  · next hover => rw [sub_ofNat_eq_ofNat_sub (by omega)]

/-- The InactiveContinue decision by the remaining duration (R136). -/
theorem inactiveContinue_eq_of_toNat (ch : Channel) (s : State) :
    inactiveContinue ch s = if (chanOf s ch).inact.toNat ≤ 256 then
        programmed s ch { chanOf s ch with phase := .inactiveFinish } (lo (chanOf s ch).inact) (cmpOf s ch).com
      else programmedForWrap s ch
        { chanOf s ch with inact := BitVec.ofNat 16 ((chanOf s ch).inact.toNat - 256) } := by
  rw [inactiveContinue_eq]
  simp only [fits_duration_iff]
  split
  · rfl
  · next hover => rw [← sub_ofNat_eq_ofNat_sub (by omega)]; rfl

/-- Settles O33: the handler of the phase is the ActiveStart decision. -/
theorem activeStartMatch : Obligations.ActiveStartMatch := by
  intro s ch hsole hphase
  rw [exec_tick_of_soleMatch hsole, hphase]
  exact congrArg _ (activeDecide_eq ch (matchedState s ch))

/-- Settles O34: the handler of the phase is the InactiveStart decision. -/
theorem inactiveStartMatch : Obligations.InactiveStartMatch := by
  intro s ch hsole hphase
  rw [exec_tick_of_soleMatch hsole, hphase]
  exact congrArg _ (inactiveStart_eq ch (matchedState s ch))

/-- Settles O35: the handler of the phase is the InactiveContinue decision. -/
theorem inactiveContinueMatch : Obligations.InactiveContinueMatch := by
  intro s ch hsole hphase
  rw [exec_tick_of_soleMatch hsole, hphase]
  exact congrArg _ (inactiveContinue_eq_of_toNat ch (matchedState s ch))

/-- Settles O36: the handler of the phase is the terminal one, and the timer was running. -/
theorem inactiveFinishMatch : Obligations.InactiveFinishMatch := by
  intro s ch hsole hphase
  have hrun : (matchedState s ch).running = true := hsole.running
  rw [exec_tick_of_soleMatch hsole, hphase, handler, inactiveFinish_eq, hrun]
  rfl

/-! ### ARM and POLL -/

/-- Settles O17: an ARM in contract is the ActiveStart decision on the armed state. -/
theorem armStartsThePulse : Obligations.ArmStartsThePulse := by
  intro ch act inact s hfault hch hother hact hinact
  have hnone := (armFault_none_iff ch act inact s).2 ⟨hch, hother, hact, hinact⟩
  have hchan : chanOf (armedState ch act inact s) ch = armedChannel act inact := pick_put_same ..
  have hremaining : 256 * (armedChannel act inact).aHi.toNat + (armedChannel act inact).aLo.toNat = act.toNat := by
    rw [armedChannel, hi_toNat, lo_toNat]; omega
  have hpin : (if pinOf s ch = .active then [] else [TraceRecord.pin ch .active]) =
      if pinOf s ch = .inactive then [.pin ch .active] else [] := by
    cases pinOf s ch <;> rfl
  have harm : exec (.arm ch act inact) s = .next (activeDecide ch (armedState ch act inact s)) := by
    rw [exec_eq_completes, completes_of_unfaulted _ hfault, effectOf, armThen, hnone, armEffect_eq]
    rfl
  rw [harm, activeDecide_eq, hchan, hremaining]
  by_cases hfit : act.toNat ≤ 256
  · simp [hfit, programmed, armedState, armedChannel, cmpOf, hpin]
  · simp [hfit, programmedForWrap, armedState, armedChannel, cmpOf, hpin]

/-- Settles O46: POLL's effect is its one record (R140). -/
theorem pollOnlyReports : Obligations.PollOnlyReports := fun _ _ =>
  ⟨completes_of_unfaulted _, completes_of_faulted _⟩

/-! ### The fit test and the compare distance -/

/-- Settles O39: the fit test's bound is the upper one, and the lower one is given. -/
theorem fitsMeansOneTimerCycle : Obligations.FitsMeansOneTimerCycle := fun h l hpos =>
  ⟨fun hfits => ⟨hpos, (fits_iff h l).1 hfits⟩, fun hbound => (fits_iff h l).2 hbound.2⟩

theorem compareDistance_pos (q v : U8) : 1 ≤ compareDistance q v := Nat.le_add_left ..

/-- The distance in arithmetic modulo 256 (R124). -/
theorem compareDistance_eq (q v : U8) : compareDistance q v = (v.toNat + 255 - q.toNat) % 256 + 1 := by
  have := q.isLt
  have := v.isLt
  rw [compareDistance, BitVec.toNat_sub, BitVec.toNat_sub, show (1 : U8).toNat = 1 from rfl]
  omega

/-- Settles O38: each clause is arithmetic modulo 256. -/
theorem compareDistanceIsTheFirstMatch : Obligations.CompareDistanceIsTheFirstMatch := by
  intro q v
  have hq := q.isLt
  have hv := v.isLt
  have hadd : ∀ k, (q + BitVec.ofNat 8 k).toNat = (q.toNat + k) % 256 := by
    intro k
    rw [BitVec.toNat_add, BitVec.toNat_ofNat]; omega
  refine ⟨compareDistance_pos q v, ?_, ?_, ?_, fun k hpos hlt hreach => ?_⟩
  · rw [compareDistance_eq]; omega
  · rw [compareDistance_eq]; omega
  · apply BitVec.eq_of_toNat_eq
    rw [hadd, compareDistance_eq]; omega
  · have hreach' := (hadd k).symm.trans (congrArg BitVec.toNat hreach)
    rw [compareDistance_eq] at hlt
    omega

end Sys2Proof.Machine
end

section
/-! No draw at the default lead (R144): with `MIN_LEAD` at most 1 no compare is too close. -/

namespace Sys2Proof.Machine

/-! ### States between which no draw is made -/

/-- From `s` to `t` the parameters are kept, no draw is made and no `skip` bit is set. -/
structure DrawFree (s t : State) : Prop where
  cfg : t.cfg = s.cfg
  draws : t.draws = s.draws
  skip : ∀ ch, (cmpOf s ch).skip = false → (cmpOf t ch).skip = false

theorem DrawFree.trans {s t u : State} (h : DrawFree s t) (h' : DrawFree t u) : DrawFree s u :=
  ⟨h'.cfg.trans h.cfg, h'.draws.trans h.draws, fun ch hs => h'.skip ch (h.skip ch hs)⟩

theorem DrawFree.of_cmp_eq {s t : State} (hcfg : t.cfg = s.cfg) (hdraws : t.draws = s.draws) (hcmp : t.cmp = s.cmp) :
    DrawFree s t :=
  ⟨hcfg, hdraws, fun ch hs => by rw [cmpOf, hcmp]; exact hs⟩

/-- One unit written, its `skip` bit not set. -/
theorem DrawFree.of_put {s t : State} {ch : Channel} {u : CompareUnit} (hcfg : t.cfg = s.cfg) (hdraws : t.draws = s.draws)
    (hcmp : t.cmp = put s.cmp ch u) (hu : (cmpOf s ch).skip = false → u.skip = false) : DrawFree s t := by
  refine ⟨hcfg, hdraws, fun c hs => ?_⟩
  rw [cmpOf, hcmp]
  rcases channel_eq_or_other c ch with rfl | rfl
  · rw [pick_put_same]; exact hu hs
  · rw [pick_put_other]; exact hs

/-! ### The operations -/

/-- A compare distance is at least 1, so it is not below a `MIN_LEAD` of at most 1 (R124, R144). -/
theorem not_compareDistance_lt {n : Nat} (h : n ≤ 1) (q v : U8) : ¬ compareDistance q v < n :=
  Nat.not_lt.2 (h.trans (compareDistance_pos q v))

theorem programmed_drawFree {m : State} (h : m.cfg.minLead ≤ 1) (ch : Channel) (c : ChannelState) (v : U8)
    (com : OutputAction) : DrawFree m (programmed m ch c v com) := by
  have hlead := not_compareDistance_lt h m.tcnt v
  exact .of_put rfl (if_neg hlead) rfl fun hs => (if_neg hlead).trans hs

theorem programmedForWrap_drawFree (m : State) (ch : Channel) (c : ChannelState) :
    DrawFree m (programmedForWrap m ch c) :=
  .of_put rfl rfl rfl id

theorem handler_drawFree {m : State} (h : m.cfg.minLead ≤ 1) (p : Phase) (ch : Channel) : DrawFree m (handler p ch m) := by
  cases p with
  | activeStart =>
    rw [handler, activeDecide_eq]
    split
    · exact programmed_drawFree h ..
    · exact programmedForWrap_drawFree ..
  | inactiveStart =>
    rw [handler, inactiveStart_eq]
    split
    · exact programmed_drawFree h ..
    · exact programmedForWrap_drawFree ..
  | inactiveContinue =>
    rw [handler, inactiveContinue_eq]
    split
    · exact programmed_drawFree h ..
    · exact programmedForWrap_drawFree ..
  | inactiveFinish =>
    rw [handler, inactiveFinish_eq]
    exact .of_put rfl rfl rfl id

theorem serviceMatch_drawFree {s : State} (h : s.cfg.minLead ≤ 1) (ch : Channel) : DrawFree s (serviceMatch ch s) := by
  have hout : DrawFree s (outputAction ch s) := by rw [outputAction_eq]; exact .of_cmp_eq rfl rfl rfl
  cases hf : inFlight s ch with
  | false => rw [serviceMatch_of_idle hf]; exact hout
  | true =>
    rw [serviceMatch_of_inFlight hf]
    have hemit : DrawFree s (emit (.compareMatch (chanOf s ch).phase ch s.tcnt) (outputAction ch s)) :=
      hout.trans (.of_cmp_eq rfl rfl rfl)
    exact hemit.trans (handler_drawFree (hemit.cfg.symm ▸ h) ..)

theorem consumeSkip_drawFree (ch : Channel) (s : State) : DrawFree s (consumeSkip ch s) := by
  unfold consumeSkip
  split
  · exact .of_put rfl rfl rfl fun _ => rfl
  · exact .of_cmp_eq rfl rfl rfl

theorem tickEffect_drawFree {s : State} (h : s.cfg.minLead ≤ 1) : DrawFree s (tickEffect s) :=
  tickEffect_keeps (P := DrawFree s)
    (fun _ hu => hu.trans (.of_cmp_eq rfl rfl rfl))
    (fun ch u hu => hu.trans (consumeSkip_drawFree ch u))
    (fun ch _ hu => hu.trans (serviceMatch_drawFree (hu.cfg.symm ▸ h) ch))
    (.of_cmp_eq rfl rfl rfl)

theorem armEffect_drawFree {s : State} (h : s.cfg.minLead ≤ 1) (ch : Channel) (act inact : U16) :
    DrawFree s (armEffect ch act inact s) := by
  have harmed : DrawFree s (armedState ch act inact s) := .of_put rfl rfl rfl fun _ => rfl
  rw [armEffect_eq]
  exact harmed.trans (handler_drawFree (m := armedState ch act inact s) h .activeStart ch)

theorem armThen_drawFree {s : State} (h : s.cfg.minLead ≤ 1) (ch : Channel) (act inact : U16) {after : State → State}
    (hafter : ∀ u, DrawFree u (after u)) : DrawFree s (armThen ch act inact after s) := by
  rcases armThen_cases ch act inact after s with ⟨-, e⟩ | ⟨code, -, e⟩ <;> rw [e]
  · exact (armEffect_drawFree h ch act inact).trans (hafter _)
  · exact .of_cmp_eq rfl rfl rfl

theorem schedEffect_drawFree {s : State} (h : s.cfg.minLead ≤ 1) : DrawFree s (schedEffect s) := by
  rcases schedEffect_cases s with ⟨ch, wait, -, e⟩ | ⟨c, e⟩ | ⟨-, -, e⟩ | ⟨-, -, e⟩ <;> rw [e]
  · exact armThen_drawFree h _ _ _ fun _ => .of_cmp_eq rfl rfl rfl
  all_goals exact .of_cmp_eq rfl rfl rfl

theorem effectOf_drawFree {s : State} (h : s.cfg.minLead ≤ 1) (i : Instr) : DrawFree s (effectOf i s) := by
  cases i with
  | sample raw => rw [effectOf, sampleEffect_eq]; exact .of_cmp_eq rfl rfl rfl
  | tick => exact tickEffect_drawFree h
  | arm ch act inact => exact armThen_drawFree h ch act inact fun _ => .of_cmp_eq rfl rfl rfl
  | poll ch => exact .of_cmp_eq rfl rfl rfl
  | step => exact schedEffect_drawFree h

/-- Settles O40: LEAD_CHECK alone draws and sets `skip`, and at this lead it does neither. -/
theorem noDrawAtTheDefaultLead : Obligations.NoDrawAtTheDefaultLead := by
  intro i s t hlead hexec
  obtain ⟨-, rfl⟩ := (exec_next_iff i s t).1 hexec
  obtain ⟨-, hdraws, hskip⟩ := effectOf_drawFree hlead i
  exact ⟨hdraws, hskip⟩

end Sys2Proof.Machine
end

section
/-! Where a flight begins and ends, and with it the `finished` flag and its record (R121, R138, R139, R145). -/

namespace Sys2Proof.Machine

/-! ### What an operation can do to a channel's flight -/

/-- The operation is an ARM of channel `ch`, or a STEP at INSPECT, which may issue one (R127, R162). -/
def MayArm (ch : Channel) (i : Instr) (s : State) : Prop :=
  (∃ act inact, i = .arm ch act inact) ∨ (i = .step ∧ s.sched = .inspect)

/-- Channel `ch` has its fields and its flight in `t` as in `s`. -/
def FlightKept (ch : Channel) (s t : State) : Prop := chanOf t ch = chanOf s ch ∧ inFlight t ch = inFlight s ch

/-- Channel `ch` is in flight in `t`, and not finished. -/
def Unfinished (ch : Channel) (t : State) : Prop := inFlight t ch = true ∧ (chanOf t ch).finished = false

/-- `n` FINISHED records of channel `ch` are appended from `s` to `t`. -/
def EmitsFinished (ch : Channel) (n : Nat) (s t : State) : Prop := ∃ rs, Appends s t rs ∧ rs.count (.finished ch) = n

theorem EngineKept.flightKept {s t : State} (h : EngineKept s t) (ch : Channel) : FlightKept ch s t :=
  ⟨by rw [chanOf, h.chan, chanOf], by rw [inFlight, cmpOf, h.cmp, inFlight, cmpOf]⟩

theorem FlightKept.trans {ch : Channel} {s t u : State} (h : FlightKept ch s t) (h' : FlightKept ch t u) :
    FlightKept ch s u :=
  ⟨h'.1.trans h.1, h'.2.trans h.2⟩

theorem EmitsFinished.trans {ch : Channel} {m n : Nat} {s t u : State} (h : EmitsFinished ch m s t)
    (h' : EmitsFinished ch n t u) : EmitsFinished ch (m + n) s u := by
  obtain ⟨rs, ht, hrs⟩ := h
  obtain ⟨rs', hu, hrs'⟩ := h'
  exact ⟨rs ++ rs', by rw [Appends, hu, ht, List.append_assoc], by rw [List.count_append, hrs, hrs']⟩

theorem SilentOn.emitsFinished {k : TraceRecord → Bool} {ch : Channel} {s t : State} (h : SilentOn k s t)
    (hk : k (.finished ch) = true) : EmitsFinished ch 0 s t := by
  obtain ⟨rs, ht, hrs⟩ := h
  refine ⟨rs, ht, List.count_eq_zero.2 fun hmem => ?_⟩
  exact List.filter_eq_nil_iff.1 hrs _ hmem hk

/-! ### Operations other than TICK -/

/-- A handler's channel is finished and out of flight after the terminal handler, and as before after another (R130 to
R138). -/
theorem handler_finished_inFlight (p : Phase) (ch : Channel) (m : State) :
    (chanOf (handler p ch m) ch).finished = (if p = .inactiveFinish then true else (chanOf m ch).finished) ∧
    inFlight (handler p ch m) ch = (if p = .inactiveFinish then false else inFlight m ch) := by
  cases p with
  | activeStart =>
    rw [handler, activeDecide_eq]
    split <;> simp
  | inactiveStart =>
    rw [handler, inactiveStart_eq]
    split <;> simp
  | inactiveContinue =>
    rw [handler, inactiveContinue_eq]
    split <;> simp
  | inactiveFinish =>
    refine ⟨?_, inFlight_inactiveFinish ch m⟩
    rw [handler, inactiveFinish_eq, chanOf, pick_put_same]
    rfl

theorem armEffect_unfinished (ch : Channel) (act inact : U16) (s : State) : Unfinished ch (armEffect ch act inact s) := by
  refine ⟨inFlight_armEffect .., ?_⟩
  rw [armEffect_eq]
  exact (handler_finished_inFlight .activeStart ch _).1.trans (armedState_flying ch act inact s).unfinished

theorem armEffect_flightKept_other (ch : Channel) (act inact : U16) (s : State) :
    FlightKept (otherChannel ch) s (armEffect ch act inact s) := by
  have hframe := armEffect_frame ch act inact s
  refine ⟨hframe.otherChan.trans (pick_put_other ..), ?_⟩
  rw [inFlight, hframe.otherCmp]
  exact congrArg CompareUnit.ie (pick_put_other ..)

/-- An ARM inside a step starts a flight of its own channel, or keeps the flight. -/
theorem armThen_flight (ch c : Channel) (act inact : U16) {after : State → State} (s : State)
    (hafter : ∀ u, EngineKept u (after u)) :
    FlightKept ch s (armThen c act inact after s) ∨ (c = ch ∧ Unfinished ch (armThen c act inact after s)) := by
  rcases armThen_cases c act inact after s with ⟨-, e⟩ | ⟨code, -, e⟩ <;> rw [e]
  · have hkept := (hafter (armEffect c act inact s)).flightKept ch
    rcases channel_eq_or_other ch c with rfl | rfl
    · obtain ⟨hflight, hfin⟩ := armEffect_unfinished ch act inact s
      exact .inr ⟨rfl, hkept.2.trans hflight, (congrArg ChannelState.finished hkept.1).trans hfin⟩
    · exact .inl ((armEffect_flightKept_other c act inact s).trans hkept)
  · exact .inl ⟨rfl, rfl⟩

/-- An operation other than TICK that does not keep a channel's flight is its ARM, and starts one. -/
theorem effectOf_flight {i : Instr} (hi : i ≠ .tick) (ch : Channel) (s : State) :
    FlightKept ch s (effectOf i s) ∨ (MayArm ch i s ∧ Unfinished ch (effectOf i s)) := by
  cases i with
  | sample raw => exact .inl ((sampleEffect_engineKept raw s).flightKept ch)
  | tick => exact absurd rfl hi
  | arm c act inact =>
    refine (armThen_flight ch c act inact s fun _ => ⟨rfl, rfl, rfl, rfl, rfl⟩).imp_right ?_
    rintro ⟨rfl, h⟩
    exact ⟨.inl ⟨act, inact, rfl⟩, h⟩
  | poll c => exact .inl ⟨rfl, rfl⟩
  | step =>
    rcases schedEffect_cases s with ⟨c, wait, hs, e⟩ | ⟨c, e⟩ | ⟨-, -, e⟩ | ⟨-, -, e⟩ <;> rw [effectOf, e]
    · refine (armThen_flight ch c (requestedActive s.cfg c) (requestedInactive s.cfg c) (after := setSched wait) s
        fun _ => ⟨rfl, rfl, rfl, rfl, rfl⟩).imp_right ?_
      rintro ⟨-, h⟩
      exact ⟨.inr ⟨rfl, hs⟩, h⟩
    all_goals exact .inl ⟨rfl, rfl⟩

theorem armThen_silentOn_finished (ch c : Channel) (act inact : U16) {after : State → State} (s : State)
    (hafter : ∀ u, (after u).trace = u.trace) : SilentOn (· == .finished ch) s (armThen c act inact after s) := by
  rcases armThen_cases c act inact after s with ⟨-, e⟩ | ⟨code, -, e⟩ <;> rw [e]
  · exact (armEffect_silentOn (fun _ => rfl) (fun _ _ => rfl) act inact s).trans (.of_trace_eq (hafter _))
  · exact .emit { s with fault := code.code } rfl

theorem effectOf_silentOn_finished {i : Instr} (hi : i ≠ .tick) (ch : Channel) (s : State) :
    SilentOn (· == .finished ch) s (effectOf i s) := by
  have hcommit : ∀ v, SilentOn (· == .finished ch) s (setSched .inspect (setCounter v s)) := fun v =>
    (setCounter_silentOn (fun _ => rfl) v s).trans (.of_trace_eq rfl)
  cases i with
  | sample raw =>
    refine SilentOn.trans (t := accumulate (shiftHistory (normalise raw) s)) (.of_trace_eq rfl) ?_
    exact (applyThresholds_silentOn rfl rfl (fun _ => rfl) _).trans (.of_trace_eq (detentReset_trace _))
  | tick => exact absurd rfl hi
  | arm c act inact => exact armThen_silentOn_finished ch c act inact s fun _ => rfl
  | poll c => exact .emit s rfl
  | step =>
    rcases schedEffect_cases s with ⟨c, wait, -, e⟩ | ⟨c, e⟩ | ⟨-, -, e⟩ | ⟨-, -, e⟩ <;> rw [effectOf, e]
    · exact armThen_silentOn_finished ch c _ _ s fun _ => rfl
    · exact .of_trace_eq rfl
    · exact hcommit _
    · exact hcommit _

/-! ### TICK -/

theorem UnitActs.kept {ch : Channel} {s t : State} (h : UnitActs (otherChannel ch) s t) :
    chanOf t ch = chanOf s ch ∧ cmpOf t ch = cmpOf s ch ∧ pinOf t ch = pinOf s ch := by
  have hchan := h.frame.otherChan
  have hcmp := h.frame.otherCmp
  have hpin := h.frame.otherPin
  rw [otherChannel_other] at hchan hcmp hpin
  exact ⟨hchan, hcmp, hpin⟩

theorem UnitActs.silentOn {ch : Channel} {s t : State} (h : UnitActs (otherChannel ch) s t) :
    SilentOn (ofUnit ch) s t :=
  otherChannel_other ch ▸ h.silent

/-- A channel's flight is kept, with no FINISHED record of it. -/
structure FlightStill (ch : Channel) (s t : State) : Prop where
  kept : FlightKept ch s t
  emits : EmitsFinished ch 0 s t

/-- What the service of an enabled unit does to its flight: only in InactiveFinish does it end, with `finished` and its
record (R138). -/
structure FlightServiced (ch : Channel) (s t : State) : Prop where
  finished : (chanOf t ch).finished = if (chanOf s ch).phase = .inactiveFinish then true else (chanOf s ch).finished
  inFlight : inFlight t ch = if (chanOf s ch).phase = .inactiveFinish then false else true
  emits : EmitsFinished ch (if (chanOf s ch).phase = .inactiveFinish then 1 else 0) s t

theorem FlightStill.trans {ch : Channel} {s t u : State} (h : FlightStill ch s t) (h' : FlightStill ch t u) :
    FlightStill ch s u :=
  ⟨h.kept.trans h'.kept, h.emits.trans h'.emits⟩

theorem FlightServiced.between {ch : Channel} {s t u v : State} (h : FlightServiced ch t u) (hbefore : FlightStill ch s t)
    (hafter : FlightStill ch u v) : FlightServiced ch s v where
  finished := by rw [hafter.kept.1, h.finished, hbefore.kept.1]
  inFlight := by rw [hafter.kept.2, h.inFlight, hbefore.kept.1]
  emits := by
    have hemits := (hbefore.emits.trans h.emits).trans hafter.emits
    rwa [hbefore.kept.1, Nat.zero_add, Nat.add_zero] at hemits

theorem UnitActs.flightStill {ch : Channel} {s t : State} (h : UnitActs (otherChannel ch) s t) : FlightStill ch s t := by
  obtain ⟨hchan, hcmp, -⟩ := h.kept
  exact ⟨⟨hchan, congrArg CompareUnit.ie hcmp⟩, h.silentOn.emitsFinished (beq_self_eq_true ch)⟩

theorem outputAction_flightStill (ch : Channel) (s : State) : FlightStill ch s (outputAction ch s) where
  kept := by rw [outputAction_eq]; exact ⟨rfl, rfl⟩
  emits := (outputAction_silentOn (k := (· == .finished ch)) (fun _ => rfl) s).emitsFinished (beq_self_eq_true _)

theorem consumeSkip_flightStill (ch : Channel) (s : State) : FlightStill ch s (consumeSkip ch s) where
  kept := ⟨by unfold consumeSkip; split <;> rfl, inFlight_consumeSkip ch s⟩
  emits := ⟨[], by rw [Appends, (consumeSkip_trace_pin ch s).1, List.append_nil], rfl⟩

theorem serviceMatch_flightServiced {ch : Channel} {s : State} (h : inFlight s ch = true) :
    FlightServiced ch s (serviceMatch ch s) := by
  have hstill := outputAction_flightStill ch s
  have hchan : ∀ r, chanOf (emit r (outputAction ch s)) ch = chanOf s ch := fun _ => hstill.kept.1
  have hflies : ∀ r, inFlight (emit r (outputAction ch s)) ch = true := fun _ => hstill.kept.2.trans h
  obtain ⟨hfin, hflight⟩ := handler_finished_inFlight (chanOf s ch).phase ch
    (emit (.compareMatch (chanOf s ch).phase ch s.tcnt) (outputAction ch s))
  have hmatch : SilentOn (· == .finished ch) (outputAction ch s)
      (emit (.compareMatch (chanOf s ch).phase ch s.tcnt) (outputAction ch s)) := .emit _ rfl
  have hrecord := hstill.emits.trans (hmatch.emitsFinished (beq_self_eq_true _))
  rw [serviceMatch_of_inFlight h]
  rw [hchan] at hfin
  rw [hflies] at hflight
  refine ⟨hfin, hflight, ?_⟩
  rw [← Nat.zero_add (ite _ _ _)]
  refine hrecord.trans ⟨_, (handler_trace_pin ..).1, ?_⟩
  split <;> simp

/-- A TICK keeps a channel's flight, or it is the match of a channel in flight (R122, R124). -/
theorem tickEffect_flight (ch : Channel) (s : State) :
    FlightStill ch s (tickEffect s) ∨
    (inFlight s ch = true ∧ (cmpOf s ch).ocr = s.tcnt + 1 ∧ FlightServiced ch s (tickEffect s)) := by
  cases hrun : s.running with
  | false => rw [tick_stopped hrun]; exact .inl ⟨⟨rfl, rfl⟩, [], (List.append_nil _).symm, rfl⟩
  | true =>
    obtain ⟨u, hbefore, hafter⟩ := tickEffect_around ch hrun
    have hu : FlightStill ch s u :=
      FlightStill.trans (t := advanceTimer s) ⟨⟨rfl, rfl⟩, [], (List.append_nil _).symm, rfl⟩
        ((consumeSkip_flightStill ch _).trans hbefore.flightStill)
    cases hmatch : matchesNow (advanceTimer s) ch with
    | false =>
      rw [hmatch] at hafter
      exact .inl (hu.trans hafter.flightStill)
    | true =>
      rw [hmatch, if_pos rfl] at hafter
      cases hflight : inFlight s ch with
      | false =>
        rw [serviceMatch_of_idle (hu.kept.2.trans hflight)] at hafter
        exact .inl ((hu.trans (outputAction_flightStill ch u)).trans hafter.flightStill)
      | true =>
        have hreached : atCompare (advanceTimer s) ch = true := (Bool.and_eq_true_iff.1 hmatch).1
        have hserviced := serviceMatch_flightServiced (hu.kept.2.trans hflight)
        exact .inr ⟨rfl, (beq_iff_eq.1 hreached).symm, hserviced.between hu hafter.flightStill⟩

/-! ### Every operation -/

/-- An operation keeps a channel's flight, starts it as an ARM, or is the match of a channel in flight. -/
theorem effectOf_flight_cases (i : Instr) (ch : Channel) (s : State) :
    FlightStill ch s (effectOf i s) ∨
    (MayArm ch i s ∧ Unfinished ch (effectOf i s) ∧ EmitsFinished ch 0 s (effectOf i s)) ∨
    (i = .tick ∧ inFlight s ch = true ∧ (cmpOf s ch).ocr = s.tcnt + 1 ∧ FlightServiced ch s (effectOf i s)) := by
  by_cases hi : i = .tick
  · subst hi
    exact (tickEffect_flight ch s).imp_right fun h => .inr ⟨rfl, h⟩
  · have hemits := (effectOf_silentOn_finished hi ch s).emitsFinished (beq_self_eq_true _)
    exact (effectOf_flight hi ch s).imp (⟨·, hemits⟩) fun ⟨harm, hstarts⟩ => .inl ⟨harm, hstarts, hemits⟩

/-- Settles O43: TICK starts no flight and ends one by the terminal handler alone; every other operation keeps a flight or
starts one. -/
theorem flightBeginsAtArmAndEndsAtFinish : Obligations.FlightBeginsAtArmAndEndsAtFinish := by
  intro i s t ch hexec
  obtain ⟨-, rfl⟩ := (exec_next_iff i s t).1 hexec
  rcases effectOf_flight_cases i ch s with hstill | ⟨harm, ⟨hflies, -⟩, -⟩ | ⟨rfl, hflight, hreached, hserviced⟩
  · rw [hstill.kept.2]
    exact ⟨fun hidle hstarts => by simp [hidle] at hstarts, fun hflies hends => by simp [hflies] at hends⟩
  · exact ⟨fun _ _ => harm, fun _ hends => by simp [hflies] at hends⟩
  · refine ⟨fun hidle => by simp [hflight] at hidle, fun _ hends => ?_⟩
    rw [hserviced.inFlight] at hends
    have hphase : (chanOf s ch).phase = .inactiveFinish := by simpa using hends
    exact ⟨rfl, hphase, hreached, hserviced.finished.trans (if_pos hphase)⟩

/-- Settles O44: under the invariant a channel in flight is not finished, so the terminal handler sets the flag, and an ARM
is all that clears it. -/
theorem finishedIsSetOncePerArm : Obligations.FinishedIsSetOncePerArm := by
  intro i s t ch hinv hexec
  obtain ⟨-, rfl⟩ := (exec_next_iff i s t).1 hexec
  rcases effectOf_flight_cases i ch s with ⟨⟨hkept, -⟩, hemits⟩ | ⟨harm, ⟨-, hclear⟩, hemits⟩ | ⟨rfl, hflight, -, hserviced⟩
  · rw [hkept, if_neg (by simp +contextual)]
    exact ⟨hemits, fun hclear hset => by simp [hclear] at hset, fun hset hclear => by simp [hset] at hclear⟩
  · rw [hclear, if_neg (by simp)]
    exact ⟨hemits, by simp, fun _ _ => harm⟩
  · obtain ⟨hfin, -, hemits⟩ := hserviced
    rw [hfin, ((hinv.engineInv.channel ch).flying hflight).unfinished]
    by_cases hphase : (chanOf s ch).phase = .inactiveFinish
    · rw [if_pos hphase] at hemits
      rw [if_pos hphase, if_pos ⟨rfl, rfl⟩]
      exact ⟨hemits, fun _ _ => ⟨rfl, hflight, hphase⟩, by simp⟩
    · rw [if_neg hphase] at hemits
      rw [if_neg hphase, if_neg (by simp)]
      exact ⟨hemits, by simp, by simp⟩

end Sys2Proof.Machine
end

section
/-! A whole pulse (R142): what is left of one in flight, in ticks and in records, and that each TICK takes one tick off. -/

namespace Sys2Proof.Machine

/-! ### What is left of a pulse -/

/-- What is left of a pulse: the ticks until its pin falls, the ticks until it is finished, and the records its unit will
append. -/
@[ext]
structure PulseRest where
  active : Nat
  total : Nat
  records : List TraceRecord

/-- The records after a match that leaves `n` inactive ticks from position 0 (R136, R138). -/
def continueRecords (ch : Channel) (n : U16) : List TraceRecord :=
  List.replicate ((n.toNat + 255) / 256 - 1) (.compareMatch .inactiveContinue ch 0) ++
    [.compareMatch .inactiveFinish ch (lo n), .finished ch]

/-- The records after the falling edge at position `p`, with `n` inactive ticks to come (R133 to R138). -/
def inactiveRecords (ch : Channel) (p : U8) (n : U16) : List TraceRecord :=
  if n.toNat ≤ 256 - p.toNat then [.compareMatch .inactiveFinish ch (p + lo n), .finished ch]
  else .compareMatch .inactiveContinue ch 0 :: continueRecords ch (BitVec.ofNat 16 (n.toNat - (256 - p.toNat)))

/-- The records of one match before its handler's (R125, R84). -/
def matchRecords (p : Phase) (ch : Channel) (v : U8) : List TraceRecord :=
  (if p = .inactiveStart then [.pin ch .inactive] else []) ++ [.compareMatch p ch v]

/-- The active duration with the high byte `h` and the low byte `l` (R34). -/
def activeTicks (h l : U8) : Nat := 256 * h.toNat + l.toNat

/-- What is left right after a match of a channel whose fields before it were `c`. -/
def afterMatch (ch : Channel) (c : ChannelState) : PulseRest :=
  match c.phase with
  | .activeStart => ⟨activeTicks c.aHi c.aLo, activeTicks c.aHi c.aLo + c.inact.toNat,
      List.replicate ((activeTicks c.aHi c.aLo + 255) / 256 - 1) (.compareMatch .activeStart ch 0) ++
        (matchRecords .inactiveStart ch c.aLo ++ inactiveRecords ch c.aLo c.inact)⟩
  | .inactiveStart => ⟨0, c.inact.toNat, inactiveRecords ch c.aLo c.inact⟩
  | .inactiveContinue => ⟨0, c.inact.toNat, continueRecords ch c.inact⟩
  | .inactiveFinish => ⟨0, 0, [.finished ch]⟩

/-- What is left at position `q` of a channel with the fields `c` and the compare value `v`. -/
def restAt (ch : Channel) (c : ChannelState) (q v : U8) : PulseRest where
  active := if c.phase = .activeStart ∨ c.phase = .inactiveStart then compareDistance q v + (afterMatch ch c).active else 0
  total := compareDistance q v + (afterMatch ch c).total
  records := matchRecords c.phase ch v ++ (afterMatch ch c).records

/-- What is left in `s` of channel `ch`'s pulse. -/
def pulseRest (ch : Channel) (s : State) : PulseRest := restAt ch (chanOf s ch) s.tcnt (cmpOf s ch).ocr

/-! ### One tick closer to the match -/

/-- The distance of a compare value `n` further ticks that end in this timer cycle (R131, R134, R136). -/
theorem compareDistance_fit {q v : U8} {n : Nat} (hpos : 1 ≤ n) (hfit : n ≤ 256) (h : v.toNat = (q.toNat + n) % 256) :
    compareDistance q v = n := by
  have := q.isLt
  rw [compareDistance_eq, h]
  omega

/-- The wrap is `256 - q` ticks away (R133). -/
theorem compareDistance_wrap (q : U8) : compareDistance q 0#8 = 256 - q.toNat := by
  have := q.isLt
  rw [compareDistance_eq, BitVec.toNat_ofNat]
  omega

theorem compareDistance_next (q : U8) : compareDistance q (q + 1) = 1 :=
  compareDistance_fit le_rfl (by decide) (BitVec.toNat_add q 1)

theorem compareDistance_succ {q v : U8} (h : v ≠ q + 1) : compareDistance q v = compareDistance (q + 1) v + 1 := by
  have hne : v.toNat ≠ (q.toNat + 1) % 256 := fun e => h (BitVec.eq_of_toNat_eq (e.trans (BitVec.toNat_add q 1).symm))
  have hadd : (q + 1).toNat = (q.toNat + 1) % 256 := BitVec.toNat_add q 1
  have := q.isLt
  have := v.isLt
  rw [compareDistance_eq, compareDistance_eq, hadd]
  omega

theorem afterMatch_active_of_inactive {ch : Channel} {c : ChannelState}
    (h : ¬ (c.phase = .activeStart ∨ c.phase = .inactiveStart)) : (afterMatch ch c).active = 0 := by
  unfold afterMatch
  cases hp : c.phase <;> simp_all

theorem restAt_away (ch : Channel) (c : ChannelState) {q v : U8} (h : v ≠ q + 1) :
    (restAt ch c (q + 1) v).active = (restAt ch c q v).active - 1 ∧
    (restAt ch c (q + 1) v).total = (restAt ch c q v).total - 1 ∧
    (restAt ch c (q + 1) v).records = (restAt ch c q v).records := by
  have hdistance := compareDistance_succ h
  refine ⟨?_, ?_, rfl⟩ <;> simp only [restAt]
  · split <;> omega
  · omega

theorem restAt_reached (ch : Channel) (c : ChannelState) (q : U8) :
    (afterMatch ch c).active = (restAt ch c q (q + 1)).active - 1 ∧
    (afterMatch ch c).total = (restAt ch c q (q + 1)).total - 1 := by
  simp only [restAt, compareDistance_next]
  refine ⟨?_, by omega⟩
  split
  · omega
  · next h => exact afterMatch_active_of_inactive h

/-! ### The handlers program what is left -/

theorem pulseRest_programmed (m : State) (ch : Channel) (c : ChannelState) (v : U8) (com : OutputAction) :
    pulseRest ch (programmed m ch c v com) = restAt ch c m.tcnt v := by
  rw [pulseRest, chanOf_programmed, cmpOf, programmed, pick_put_same]

theorem pulseRest_programmedForWrap (m : State) (ch : Channel) (c : ChannelState) :
    pulseRest ch (programmedForWrap m ch c) = restAt ch c m.tcnt 0#8 := by
  rw [pulseRest, chanOf_programmedForWrap, cmpOf, programmedForWrap, pick_put_same]
  rfl

/-- A chained match leaves 256 ticks less (R132). -/
theorem activeTicks_chain {h l : U8} (hover : 256 < activeTicks h l) :
    activeTicks h l = activeTicks (h - 1) l + 256 := by
  unfold activeTicks at *
  have := h.isLt
  have := l.isLt
  rw [BitVec.toNat_sub, show (1 : U8).toNat = 1 from rfl]
  omega

/-- R130: the ActiveStart decision programs the active duration that is left. -/
theorem pulseRest_activeDecide {m : State} {ch : Channel} (hphase : (chanOf m ch).phase = .activeStart)
    (hpos : m.tcnt = 0#8) (hleft : 1 ≤ activeTicks (chanOf m ch).aHi (chanOf m ch).aLo) :
    pulseRest ch (activeDecide ch m) = afterMatch ch (chanOf m ch) := by
  rw [activeDecide_eq, ← activeTicks]
  split
  · next hfit =>
    have hdistance : compareDistance 0#8 (chanOf m ch).aLo = activeTicks (chanOf m ch).aHi (chanOf m ch).aLo := by
      have := (chanOf m ch).aLo.isLt
      exact compareDistance_fit hleft hfit (by rw [activeTicks, BitVec.toNat_ofNat]; omega)
    have hlast : (activeTicks (chanOf m ch).aHi (chanOf m ch).aLo + 255) / 256 - 1 = 0 := by omega
    rw [pulseRest_programmed, hpos]
    ext1 <;> simp [restAt, afterMatch, hphase, hdistance, hlast]
  · next hover =>
    have hchain := activeTicks_chain (not_le.1 hover)
    have hmatches : (activeTicks (chanOf m ch).aHi (chanOf m ch).aLo + 255) / 256 - 1 =
        (activeTicks ((chanOf m ch).aHi - 1) (chanOf m ch).aLo + 255) / 256 - 1 + 1 := by omega
    rw [pulseRest_programmedForWrap, hpos]
    ext1
    · simp [restAt, afterMatch, hphase, compareDistance_wrap, hchain, Nat.add_comm]
    · simp only [restAt, afterMatch, hphase, compareDistance_wrap, hchain, BitVec.toNat_ofNat]
      omega
    · simp [restAt, afterMatch, hphase, hmatches, matchRecords, List.replicate_succ]

/-- R133: the InactiveStart decision programs the inactive duration from `aLo`. -/
theorem pulseRest_inactiveStart {m : State} {ch : Channel} (hphase : (chanOf m ch).phase = .inactiveStart)
    (hpos : m.tcnt = (chanOf m ch).aLo) (hleft : 1 ≤ (chanOf m ch).inact.toNat) :
    pulseRest ch (inactiveStart ch m) = afterMatch ch (chanOf m ch) := by
  have := (chanOf m ch).aLo.isLt
  have := (chanOf m ch).inact.isLt
  rw [inactiveStart_eq]
  split
  · next hfit =>
    have hdistance : compareDistance (chanOf m ch).aLo ((chanOf m ch).aLo + lo (chanOf m ch).inact) =
        (chanOf m ch).inact.toNat :=
      compareDistance_fit hleft (by omega) (by rw [BitVec.toNat_add, lo_toNat]; omega)
    rw [pulseRest_programmed, hpos]
    ext1 <;> simp [restAt, afterMatch, hphase, hdistance, inactiveRecords, hfit, matchRecords]
  · next hover =>
    rw [pulseRest_programmedForWrap, hpos]
    ext1
    · simp [restAt, afterMatch, hphase]
    · simp only [restAt, afterMatch, hphase, compareDistance_wrap, BitVec.toNat_ofNat]
      omega
    · simp [restAt, afterMatch, hphase, inactiveRecords, hover, matchRecords]

/-- R136: the InactiveContinue decision programs the inactive duration that is left. -/
theorem pulseRest_inactiveContinue {m : State} {ch : Channel} (hphase : (chanOf m ch).phase = .inactiveContinue)
    (hpos : m.tcnt = 0#8) (hleft : 1 ≤ (chanOf m ch).inact.toNat) :
    pulseRest ch (inactiveContinue ch m) = afterMatch ch (chanOf m ch) := by
  have := (chanOf m ch).inact.isLt
  rw [inactiveContinue_eq_of_toNat]
  split
  · next hfit =>
    have hdistance : compareDistance 0#8 (lo (chanOf m ch).inact) = (chanOf m ch).inact.toNat :=
      compareDistance_fit hleft hfit (by rw [lo_toNat, BitVec.toNat_ofNat]; omega)
    have hlast : ((chanOf m ch).inact.toNat + 255) / 256 - 1 = 0 := by omega
    rw [pulseRest_programmed, hpos]
    ext1 <;> simp [restAt, afterMatch, hphase, hdistance, continueRecords, hlast, matchRecords]
  · next hover =>
    have hlower : (BitVec.ofNat 16 ((chanOf m ch).inact.toNat - 256)).toNat + 256 = (chanOf m ch).inact.toNat := by
      rw [BitVec.toNat_ofNat]; omega
    have hlast : ((chanOf m ch).inact.toNat + 255) / 256 - 1 =
        ((BitVec.ofNat 16 ((chanOf m ch).inact.toNat - 256)).toNat + 255) / 256 - 1 + 1 := by omega
    have hlo : lo (BitVec.ofNat 16 ((chanOf m ch).inact.toNat - 256)) = lo (chanOf m ch).inact := by
      apply BitVec.eq_of_toNat_eq
      rw [lo_toNat, lo_toNat]; omega
    rw [pulseRest_programmedForWrap, hpos]
    ext1
    · simp [restAt, afterMatch, hphase]
    · simp only [restAt, afterMatch, hphase, compareDistance_wrap, BitVec.toNat_ofNat]
      omega
    · simp only [restAt, afterMatch, hphase, continueRecords, hlast, hlo, matchRecords, List.replicate_succ]
      rfl

/-! ### A pulse in flight -/

/-- Channel `ch` is in flight alone on an unfaulted block at the default lead, its next match not marked as missed. -/
structure InPulse (ch : Channel) (s : State) : Prop where
  unfaulted : s.fault = 0
  lead : s.cfg.minLead ≤ 1
  inv : ChannelInv s ch
  flies : inFlight s ch = true
  notSkipped : (cmpOf s ch).skip = false
  otherIdle : inFlight s (otherChannel ch) = false

/-- Channel `ch`'s pulse is over (R138). -/
structure PulseOver (ch : Channel) (s : State) : Prop where
  unfaulted : s.fault = 0
  stopped : s.running = false
  landed : inFlight s ch = false
  finished : (chanOf s ch).finished = true
  pinInactive : pinOf s ch = .inactive

/-- `r` is what is left of channel `ch`'s pulse, in flight or over. -/
inductive PulseAt (ch : Channel) (s : State) : PulseRest → Prop where
  | flying (h : InPulse ch s) : PulseAt ch s (pulseRest ch s)
  | done (h : PulseOver ch s) : PulseAt ch s ⟨0, 0, []⟩

/-- From `s`, where `r` is left of channel `ch`'s pulse, to `t`: `n` ticks of it are done, and the records of its unit with
those still to come are the ones of `r`. -/
def PulseMoves (ch : Channel) (n : Nat) (r : PulseRest) (s t : State) : Prop :=
  ∃ r', PulseAt ch t r' ∧ r'.active = r.active - n ∧ r'.total = r.total - n ∧
    ∃ rs, Appends s t rs ∧ rs.filter (ofUnit ch) ++ r'.records = r.records

theorem InPulse.running {ch : Channel} {s : State} (h : InPulse ch s) : s.running = true := (h.inv.flying h.flies).running

/-- What the other unit does beside a pulse does not touch it (R37). -/
theorem InPulse.beside {ch : Channel} {s t : State} (h : InPulse ch s) (ht : UnitActs (otherChannel ch) s t) :
    InPulse ch t ∧ pulseRest ch t = pulseRest ch s := by
  obtain ⟨hchan, hcmp, hpin⟩ := ht.kept
  have hrunning : t.running = s.running := ht.frame.running.resolve_right fun ⟨_, hother, _⟩ =>
    Bool.false_ne_true (h.otherIdle.symm.trans hother)
  refine ⟨⟨ht.frame.fault.trans h.unfaulted, ht.frame.cfg ▸ h.lead, ?_, ?_, hcmp ▸ h.notSkipped,
    ht.staysIdle h.otherIdle⟩, ?_⟩
  · exact h.inv.congr ⟨(cmpOf s ch).skip, hcmp⟩ hchan hpin hrunning ht.frame.owner
  · exact (congrArg CompareUnit.ie hcmp).trans h.flies
  · rw [pulseRest, hchan, hcmp, ht.frame.tcnt, pulseRest]

theorem PulseOver.beside {ch : Channel} {s t : State} (h : PulseOver ch s) (ht : UnitActs (otherChannel ch) s t) :
    PulseOver ch t := by
  obtain ⟨hchan, hcmp, hpin⟩ := ht.kept
  refine ⟨ht.frame.fault.trans h.unfaulted, ?_, ?_, hchan ▸ h.finished, hpin.trans h.pinInactive⟩
  · exact ht.frame.running.elim (·.trans h.stopped) (·.1)
  · exact (congrArg CompareUnit.ie hcmp).trans h.landed

theorem PulseAt.beside {ch : Channel} {s t : State} {r : PulseRest} (h : PulseAt ch s r)
    (ht : UnitActs (otherChannel ch) s t) : PulseAt ch t r := by
  cases h with
  | flying h =>
    obtain ⟨hin, hrest⟩ := h.beside ht
    exact hrest ▸ .flying hin
  | done h => exact .done (h.beside ht)

theorem InPulse.advanced {ch : Channel} {s : State} (h : InPulse ch s) : InPulse ch (advanceTimer s) :=
  ⟨h.unfaulted, h.lead, h.inv.congr ⟨_, rfl⟩ rfl rfl rfl rfl, h.flies, h.notSkipped, h.otherIdle⟩

/-! ### The match of a pulse in flight -/

/-- The records of an enabled unit's service: its action's, MATCH, and FINISHED from the terminal handler (R125, R84). -/
theorem serviceMatch_trace {ch : Channel} {s : State} (hinv : ChannelInv s ch) (hflies : inFlight s ch = true) :
    Appends s (serviceMatch ch s) (matchRecords (chanOf s ch).phase ch s.tcnt ++
      if (chanOf s ch).phase = .inactiveFinish then [.finished ch] else []) := by
  have hphase := hinv.phaseInv hflies
  have hfalls : ((cmpOf s ch).com = .driveInactive ∧ pinOf s ch = .active) ↔ (chanOf s ch).phase = .inactiveStart := by
    unfold PhaseInvAt PhaseInv at hphase
    cases hp : (chanOf s ch).phase <;> simp_all
  rw [serviceMatch_of_inFlight hflies, Appends, (handler_trace_pin ..).1, emit_trace, outputAction_eq, matchRecords]
  simp only [hfalls, List.append_assoc]

/-- A match before the last one leaves the pulse in flight with what `afterMatch` says (R130 to R136). -/
theorem serviceMatch_inPulse {ch : Channel} {s : State} (h : InPulse ch s) (hreached : (cmpOf s ch).ocr = s.tcnt)
    (hphase : (chanOf s ch).phase ≠ .inactiveFinish) :
    InPulse ch (serviceMatch ch s) ∧ pulseRest ch (serviceMatch ch s) = afterMatch ch (chanOf s ch) := by
  have hframe := serviceMatch_frame ch s
  have hdraw := serviceMatch_drawFree h.lead ch
  have hserviced := (serviceMatch_flightServiced h.flies).inFlight
  rw [if_neg hphase] at hserviced
  refine ⟨⟨hframe.fault.trans h.unfaulted, hframe.cfg ▸ h.lead, serviceMatch_channelInv h.inv h.flies, hserviced,
    hdraw.skip ch h.notSkipped, ?_⟩, ?_⟩
  · rw [inFlight, hframe.otherCmp]; exact h.otherIdle
  · have hinv := h.inv.phaseInv h.flies
    have hchan : ∀ r, chanOf (emit r (outputAction ch s)) ch = chanOf s ch := fun _ => by
      rw [outputAction_eq]; rfl
    have htcnt : ∀ r, (emit r (outputAction ch s)).tcnt = (cmpOf s ch).ocr := fun _ => by
      rw [hreached, outputAction_eq]; rfl
    have hrest : pulseRest ch (handler (chanOf s ch).phase ch
        (emit (.compareMatch (chanOf s ch).phase ch s.tcnt) (outputAction ch s))) =
        afterMatch ch (chanOf (emit (.compareMatch (chanOf s ch).phase ch s.tcnt) (outputAction ch s)) ch) := by
      unfold PhaseInvAt PhaseInv at hinv
      cases hp : (chanOf s ch).phase <;> rw [hp] at hinv
      case activeStart =>
        obtain ⟨-, hocr, -, hleft, -⟩ := hinv
        exact pulseRest_activeDecide (by rw [hchan, hp]) ((htcnt _).trans hocr) (by rw [hchan]; exact hleft)
      case inactiveStart =>
        obtain ⟨-, hocr, -, hleft⟩ := hinv
        exact pulseRest_inactiveStart (by rw [hchan, hp]) (by rw [hchan, htcnt, hocr]) (by rw [hchan]; exact hleft)
      case inactiveContinue =>
        obtain ⟨-, hocr, hleft⟩ := hinv
        exact pulseRest_inactiveContinue (by rw [hchan, hp]) ((htcnt _).trans hocr) (by rw [hchan]; exact hleft)
      case inactiveFinish => exact absurd hp hphase
    rw [serviceMatch_of_inFlight h.flies, hrest, hchan]

/-- The last match ends the pulse (R138). -/
theorem serviceMatch_pulseOver {ch : Channel} {s : State} (h : InPulse ch s)
    (hphase : (chanOf s ch).phase = .inactiveFinish) : PulseOver ch (serviceMatch ch s) := by
  have hframe := serviceMatch_frame ch s
  have hserviced := serviceMatch_flightServiced h.flies
  have hlanded : inFlight (serviceMatch ch s) ch = false := hserviced.inFlight.trans (if_pos hphase)
  refine ⟨hframe.fault.trans h.unfaulted, ?_, hlanded, hserviced.finished.trans (if_pos hphase),
    (serviceMatch_channelInv h.inv h.flies).idlePin hlanded⟩
  have hstop := handler_inFlight_or_stopped (chanOf s ch).phase
    (outputAction_flying (h.inv.flying h.flies) (.compareMatch (chanOf s ch).phase ch s.tcnt))
  rw [← serviceMatch_of_inFlight h.flies] at hstop
  exact hstop.resolve_left (by simp [hlanded])

/-- A match is one tick of the pulse, from the position before it. -/
theorem serviceMatch_pulseMoves {ch : Channel} {s : State} (h : InPulse ch s) {q : U8} (hpos : s.tcnt = q + 1)
    (hreached : (cmpOf s ch).ocr = q + 1) :
    PulseMoves ch 1 (restAt ch (chanOf s ch) q (cmpOf s ch).ocr) s (serviceMatch ch s) := by
  obtain ⟨hactive, htotal⟩ := restAt_reached ch (chanOf s ch) q
  have htrace := serviceMatch_trace h.inv h.flies
  have hown : (matchRecords (chanOf s ch).phase ch s.tcnt).filter (ofUnit ch) =
      matchRecords (chanOf s ch).phase ch s.tcnt := by
    unfold matchRecords
    split <;> simp [ofUnit]
  rw [hreached]
  by_cases hphase : (chanOf s ch).phase = .inactiveFinish
  · have hafter : afterMatch ch (chanOf s ch) = ⟨0, 0, [.finished ch]⟩ := by rw [afterMatch, hphase]
    rw [hafter] at hactive htotal
    refine ⟨_, .done (serviceMatch_pulseOver h hphase), hactive, htotal, _, htrace, ?_⟩
    rw [List.filter_append, hown, if_pos hphase, restAt, hafter, hpos]
    simp [ofUnit]
  · obtain ⟨hin, hrest⟩ := serviceMatch_inPulse h (hreached.trans hpos.symm) hphase
    refine ⟨_, .flying hin, hrest ▸ hactive, hrest ▸ htotal, _, htrace, ?_⟩
    rw [List.filter_append, hown, if_neg hphase, hrest, restAt, hpos]
    simp

/-! ### TICKs of a pulse -/

/-- What the other unit does before and after does not touch the pulse. -/
theorem PulseMoves.between {ch : Channel} {n : Nat} {r : PulseRest} {s t u v : State} (h : PulseMoves ch n r t u)
    (hbefore : SilentOn (ofUnit ch) s t) (hafter : UnitActs (otherChannel ch) u v) : PulseMoves ch n r s v := by
  obtain ⟨r', hu, hactive, htotal, rs, happ, hrs⟩ := h
  obtain ⟨before, ht, hsilent⟩ := hbefore
  obtain ⟨after, hv, hsilent'⟩ := hafter.silentOn
  refine ⟨r', hu.beside hafter, hactive, htotal, before ++ rs ++ after, ?_, ?_⟩
  · rw [Appends, hv, happ, ht, List.append_assoc, List.append_assoc, List.append_assoc]
  · rw [List.filter_append, List.filter_append, hsilent, hsilent', List.nil_append, List.append_nil, hrs]

theorem PulseMoves.trans {ch : Channel} {m n : Nat} {r : PulseRest} {s t u : State} (h : PulseMoves ch m r s t)
    (h' : ∀ r', PulseAt ch t r' → PulseMoves ch n r' t u) : PulseMoves ch (m + n) r s u := by
  obtain ⟨r', ht, hactive, htotal, rs, happ, hrs⟩ := h
  obtain ⟨r'', hu, hactive', htotal', rs', happ', hrs'⟩ := h' r' ht
  refine ⟨r'', hu, by omega, by omega, rs ++ rs', ?_, ?_⟩
  · rw [Appends, happ', happ, List.append_assoc]
  · rw [List.filter_append, List.append_assoc, hrs', hrs]

/-- A TICK is one tick of the pulse (R142). -/
theorem tickEffect_pulseMoves {ch : Channel} {s : State} {r : PulseRest} (h : PulseAt ch s r) :
    PulseMoves ch 1 r s (tickEffect s) := by
  cases h with
  | done h =>
    rw [tick_stopped h.stopped]
    exact ⟨_, .done h, rfl, rfl, [], (List.append_nil _).symm, rfl⟩
  | flying h =>
    obtain ⟨u, hbefore, hafter⟩ := tickEffect_around ch h.running
    rw [consumeSkip_advanced h.notSkipped] at hbefore
    obtain ⟨hu, hrest⟩ := h.advanced.beside hbefore
    obtain ⟨hchan, hcmp, -⟩ := hbefore.kept
    have hsilent : SilentOn (ofUnit ch) s u := hbefore.silentOn
    by_cases hreached : (cmpOf s ch).ocr = s.tcnt + 1
    · rw [matchesNow_advanced hreached h.notSkipped, if_pos rfl] at hafter
      have hservice := serviceMatch_pulseMoves hu hbefore.frame.tcnt (hcmp ▸ hreached)
      rw [hchan, hcmp] at hservice
      exact hservice.between hsilent hafter
    · have haway : atCompare (advanceTimer s) ch = false := beq_eq_false_iff_ne.2 (Ne.symm hreached)
      rw [matchesNow_of_away haway] at hafter
      obtain ⟨hactive, htotal, hrecords⟩ := restAt_away ch (chanOf s ch) hreached
      have hcounted : PulseMoves ch 1 (pulseRest ch s) u u :=
        ⟨_, .flying hu, hrest ▸ hactive, hrest ▸ htotal, [], (List.append_nil _).symm, hrest ▸ hrecords⟩
      exact hcounted.between hsilent hafter

theorem PulseAt.unfaulted {ch : Channel} {s : State} {r : PulseRest} (h : PulseAt ch s r) : s.fault = 0 := by
  cases h with
  | done h => exact h.unfaulted
  | flying h => exact h.unfaulted

/-- `n` TICKs are `n` ticks of the pulse (R142). -/
theorem iterate_tickEffect_pulseMoves {ch : Channel} (n : Nat) {s : State} {r : PulseRest} (h : PulseAt ch s r) :
    PulseMoves ch n r s (tickEffect^[n] s) := by
  induction n generalizing s r with
  | zero => exact ⟨r, h, rfl, rfl, [], (List.append_nil _).symm, rfl⟩
  | succ n ih =>
    have hmoves := (tickEffect_pulseMoves h).trans fun _ ht => ih ht
    rw [Nat.add_comm] at hmoves
    exact hmoves

/-- TICKs complete on an unfaulted block: none of them raises a fault (R122). -/
theorem runOps_ticksOps (n : Nat) {s : State} (h : s.fault = 0) :
    runOps (ticksOps n) s = .next (tickEffect^[n] s) := by
  induction n generalizing s with
  | zero => rfl
  | succ n ih =>
    rw [ticksOps, List.replicate_succ, runOps_cons_of_unfaulted h]
    exact ih ((tickEffect_outsideKept s).fault.trans h)

/-! ### The pulse of an ARM -/

theorem armedChannel_ticks (act inact : U16) :
    activeTicks (armedChannel act inact).aHi (armedChannel act inact).aLo = act.toNat := by
  rw [activeTicks, armedChannel, hi_toNat, lo_toNat]
  omega

/-- After an ARM in contract the whole pulse is left (R127, R130). -/
theorem armEffect_pulseAt {ch : Channel} {act inact : U16} {s : State} (hfault : s.fault = 0) (hlead : s.cfg.minLead ≤ 1)
    (hother : inFlight s (otherChannel ch) = false) (hact : act ≠ 0) (hinact : inact ≠ 0) :
    PulseAt ch (armEffect ch act inact s) (afterMatch ch (armedChannel act inact)) := by
  have hkept := armEffect_outsideKept ch act inact s
  have hchan : chanOf (armedState ch act inact s) ch = armedChannel act inact := pick_put_same ..
  have hskip : (cmpOf (armedState ch act inact s) ch).skip = false := congrArg CompareUnit.skip (pick_put_same ..)
  have hdraw := handler_drawFree (m := armedState ch act inact s) hlead .activeStart ch
  have hpositive : act.toNat ≠ 0 := fun e => hact (BitVec.eq_of_toNat_eq e)
  have hrest : pulseRest ch (armEffect ch act inact s) = afterMatch ch (armedChannel act inact) := by
    rw [armEffect_eq, ← hchan]
    refine pulseRest_activeDecide (by rw [hchan]; rfl) rfl ?_
    rw [hchan, armedChannel_ticks]
    exact Nat.one_le_iff_ne_zero.2 hpositive
  rw [← hrest]
  refine .flying ⟨hkept.fault.trans hfault, hkept.cfg ▸ hlead, armEffect_channelInv ch act s hinact,
    inFlight_armEffect .., ?_, (armEffect_flightKept_other ch act inact s).2.trans hother⟩
  rw [armEffect_eq]
  exact hdraw.skip ch hskip

/-- The TICKs after an ARM in contract (R142). -/
theorem ticks_after_arm {ch : Channel} {act inact : U16} {s u : State} (hlead : s.cfg.minLead = 1)
    (hch : inFlight s ch = false) (hother : inFlight s (otherChannel ch) = false) (hact : act ≠ 0) (hinact : inact ≠ 0)
    (harm : exec (.arm ch act inact) s = .next u) (n : Nat) :
    ∃ t, runOps (ticksOps n) u = .next t ∧ PulseMoves ch n (afterMatch ch (armedChannel act inact)) u t := by
  obtain ⟨hfault, rfl⟩ := (exec_next_iff ..).1 harm
  have hnone := (armFault_none_iff ch act inact s).2 ⟨hch, hother, hact, hinact⟩
  have heffect : effectOf (.arm ch act inact) s = armEffect ch act inact s := by rw [effectOf, armThen, hnone]; rfl
  have harmed := armEffect_pulseAt hfault hlead.le hother hact hinact
  rw [heffect]
  exact ⟨_, runOps_ticksOps n harmed.unfaulted, iterate_tickEffect_pulseMoves n harmed⟩

theorem afterMatch_armedChannel (ch : Channel) (act inact : U16) :
    afterMatch ch (armedChannel act inact) = ⟨act.toNat, act.toNat + inact.toNat,
      List.replicate ((act.toNat + 255) / 256 - 1) (.compareMatch .activeStart ch 0) ++
        (matchRecords .inactiveStart ch (lo act) ++ inactiveRecords ch (lo act) inact)⟩ := by
  rw [← armedChannel_ticks act inact]
  rfl

theorem restAt_active_pos_iff (ch : Channel) (c : ChannelState) (q v : U8) :
    0 < (restAt ch c q v).active ↔ c.phase = .activeStart ∨ c.phase = .inactiveStart := by
  have hpos := compareDistance_pos q v
  rw [restAt]
  dsimp only
  split
  · next h => exact iff_of_true (by omega) h
  · next h => exact iff_of_false (lt_irrefl 0) h

/-- The ticks left tell the pin (R142). -/
theorem PulseAt.pin {ch : Channel} {s : State} {r : PulseRest} (h : PulseAt ch s r) :
    pinOf s ch = if 0 < r.active then .active else .inactive := by
  cases h with
  | done h => exact h.pinInactive
  | flying h =>
    have hphase := h.inv.phaseInv h.flies
    unfold PhaseInvAt PhaseInv at hphase
    simp only [pulseRest, restAt_active_pos_iff]
    cases hp : (chanOf s ch).phase <;> rw [hp] at hphase
    case activeStart => exact hphase.1
    case inactiveStart => exact hphase.1
    case inactiveContinue => exact hphase.1
    case inactiveFinish => exact hphase

/-- The ticks left tell whether the pulse is over (R142). -/
theorem PulseAt.flight {ch : Channel} {s : State} {r : PulseRest} (h : PulseAt ch s r) :
    (0 < r.total ∧ (chanOf s ch).finished = false ∧ inFlight s ch = true ∧ s.running = true) ∨
    (r = ⟨0, 0, []⟩ ∧ (chanOf s ch).finished = true ∧ inFlight s ch = false ∧ s.running = false) := by
  cases h with
  | done h => exact .inr ⟨rfl, h.finished, h.landed, h.stopped⟩
  | flying h =>
    have hpos := compareDistance_pos s.tcnt (cmpOf s ch).ocr
    exact .inl ⟨Nat.lt_of_lt_of_le hpos (Nat.le_add_right ..), (h.inv.flying h.flies).unfinished, h.flies, h.running⟩

/-- Settles O41: after `k` TICKs `k` ticks of the pulse are done, and what is left tells the pin and the flight. -/
theorem pulseLastsExactlyItsDurations : Obligations.PulseLastsExactlyItsDurations := by
  intro ch act inact s u _ hlead hch hother hact hinact harm k
  obtain ⟨t, hrun, r, hr, hactive, htotal, -⟩ := ticks_after_arm hlead hch hother hact hinact harm k
  rw [afterMatch_armedChannel] at hactive htotal
  dsimp only at hactive htotal
  have hpin := hr.pin
  refine ⟨t, hrun, hr.unfaulted, fun hk => ?_, fun hk => ?_, fun hk => ?_, fun hk => ?_⟩
  · rwa [if_pos (by omega)] at hpin
  · rwa [if_neg (by omega)] at hpin
  · rcases hr.flight with ⟨-, hflight⟩ | ⟨rfl, -⟩
    · exact hflight
    · dsimp only at htotal; omega
  · rcases hr.flight with ⟨hleft, -⟩ | ⟨-, hover⟩
    · omega
    · exact hover

/-! ### The records of a whole pulse -/

theorem filter_isMatchOf_ofUnit (p : Phase) (ch : Channel) (rs : List TraceRecord) :
    (rs.filter (ofUnit ch)).filter (isMatchOf p ch) = rs.filter (isMatchOf p ch) := by
  rw [List.filter_filter]
  refine List.filter_congr fun r _ => ?_
  cases h : isMatchOf p ch r
  · rfl
  · rw [ofUnit_of_isMatchOf r h]; rfl

theorem countP_isMatchOf_ofUnit (p : Phase) (ch : Channel) (rs : List TraceRecord) :
    (rs.filter (ofUnit ch)).countP (isMatchOf p ch) = rs.countP (isMatchOf p ch) := by
  rw [List.countP_eq_length_filter, filter_isMatchOf_ofUnit, List.countP_eq_length_filter]

/-- R142's count of MATCH_2 records after the falling edge at `p`. -/
theorem countP_inactiveRecords (ch : Channel) (p : U8) (n : U16) :
    (inactiveRecords ch p n).countP (isMatchOf .inactiveContinue ch) =
      if n.toNat ≤ 256 - p.toNat then 0 else (n.toNat - (256 - p.toNat) + 255) / 256 := by
  have := n.isLt
  unfold inactiveRecords
  split
  · simp [isMatchOf]
  · have hrest : (BitVec.ofNat 16 (n.toNat - (256 - p.toNat))).toNat = n.toNat - (256 - p.toNat) := by
      rw [BitVec.toNat_ofNat]; omega
    have hcount : (continueRecords ch (BitVec.ofNat 16 (n.toNat - (256 - p.toNat)))).countP
        (isMatchOf .inactiveContinue ch) = (n.toNat - (256 - p.toNat) + 255) / 256 - 1 := by
      simp [continueRecords, hrest, isMatchOf, List.countP_replicate]
    rw [List.countP_cons_of_pos (by simp [isMatchOf]), hcount]
    omega

/-- The other records after the falling edge: one MATCH_3 and one FINISHED. -/
theorem inactiveRecords_others (ch : Channel) (p : U8) (n : U16) :
    (inactiveRecords ch p n).countP (isMatchOf .activeStart ch) = 0 ∧
    (inactiveRecords ch p n).filter (isMatchOf .inactiveStart ch) = [] ∧
    (inactiveRecords ch p n).countP (isMatchOf .inactiveFinish ch) = 1 ∧
    (inactiveRecords ch p n).count (.finished ch) = 1 := by
  unfold inactiveRecords continueRecords
  split <;> simp [isMatchOf, List.countP_replicate, List.count_replicate]

/-- Settles O42: after `D + I` TICKs nothing is left of the pulse, so its unit's records are those `afterMatch` lists. -/
theorem pulseEmitsItsMatches : Obligations.PulseEmitsItsMatches := by
  intro ch act inact s u _ hlead hch hother hact hinact harm
  obtain ⟨t, hrun, r, hr, -, htotal, rs, happ, hrs⟩ :=
    ticks_after_arm hlead hch hother hact hinact harm (act.toNat + inact.toNat)
  rw [afterMatch_armedChannel] at htotal hrs
  have hrecords : r.records = [] := by
    rcases hr.flight with ⟨hleft, -⟩ | ⟨rfl, -⟩
    · dsimp only at htotal; omega
    · rfl
  rw [hrecords, List.append_nil] at hrs
  obtain ⟨hactive, hstart, hfinish, hfinished⟩ := inactiveRecords_others ch (lo act) inact
  have hcontinue := countP_inactiveRecords ch (lo act) inact
  refine ⟨t, rs, hrun, happ, ?_, ?_, ?_, ?_, ?_⟩
  · rw [← countP_isMatchOf_ofUnit, hrs]
    simp [matchRecords, isMatchOf, List.countP_replicate, hactive]
  · rw [← filter_isMatchOf_ofUnit, hrs]
    simp [matchRecords, isMatchOf, hstart]
  · rw [← countP_isMatchOf_ofUnit, hrs]
    simp [matchRecords, isMatchOf, List.countP_replicate, hcontinue]
  · rw [← countP_isMatchOf_ofUnit, hrs]
    simp [matchRecords, isMatchOf, List.countP_replicate, hfinish]
  · have hown : ofUnit ch (.finished ch) = true := beq_self_eq_true ch
    rw [← List.count_filter hown, hrs]
    simp [matchRecords, List.count_replicate, hfinished]

end Sys2Proof.Machine
end

section
/-! The scheduler's sub-steps channel by channel, and with no host ARM its exclusivity (R161 to R171). -/

namespace Sys2Proof.Machine

/-! ### The control states and the counter, by channel -/

/-- The control state that waits for channel `ch` (R164, R166). -/
def waitOf (ch : Channel) : SchedState :=
  match ch with
  | .a => .waitA
  | .b => .waitB

/-- The control state that commits channel `ch`'s pulse (R165, R168). -/
def commitOf (ch : Channel) : SchedState :=
  match ch with
  | .a => .commitA
  | .b => .commitB

/-- The pulses the counter still asks of channel `ch`: a positive counter asks A, a negative one B (R162, R163). -/
def owed (ch : Channel) (s : State) : Int :=
  match ch with
  | .a => s.counter.toInt
  | .b => -s.counter.toInt

/-- The counter one unit closer to zero, after a pulse on channel `ch` (R165, R168). -/
def paid (ch : Channel) (v : I8) : I8 :=
  match ch with
  | .a => v - 1
  | .b => v + 1

theorem sched_cases (c : SchedState) : c = .inspect ∨ ∃ ch, c = waitOf ch ∨ c = commitOf ch := by
  cases c with
  | inspect => exact .inl rfl
  | waitA => exact .inr ⟨.a, .inl rfl⟩
  | commitA => exact .inr ⟨.a, .inr rfl⟩
  | waitB => exact .inr ⟨.b, .inl rfl⟩
  | commitB => exact .inr ⟨.b, .inr rfl⟩

@[simp] theorem waitOf_ne_inspect (ch : Channel) : waitOf ch ≠ .inspect := by cases ch <;> decide
@[simp] theorem commitOf_ne_inspect (ch : Channel) : commitOf ch ≠ .inspect := by cases ch <;> decide
@[simp] theorem commitOf_ne_waitOf (c ch : Channel) : commitOf ch ≠ waitOf c := by cases c <;> cases ch <;> decide

theorem waitOf_inj {c ch : Channel} : waitOf c = waitOf ch → c = ch := by cases c <;> cases ch <;> decide

theorem counter_zero_or_owed (s : State) : s.counter = 0 ∨ ∃ ch, 0 < owed ch s := by
  rcases lt_trichotomy s.counter.toInt 0 with hneg | hzero | hpos
  · exact .inr ⟨.b, Int.neg_pos.2 hneg⟩
  · exact .inl (BitVec.toInt_inj.1 hzero)
  · exact .inr ⟨.a, hpos⟩

theorem counter_zero_of_owed {ch : Channel} {s : State} (h : owed ch s = 0) : s.counter = 0 := by
  refine BitVec.toInt_inj.1 ?_
  cases ch with
  | a => exact h
  | b => exact Int.neg_eq_zero.1 h

theorem owed_congr {s t : State} (ch : Channel) (h : t.counter = s.counter) : owed ch t = owed ch s := by
  cases ch <;> simp only [owed, h]

/-- A commit pays one unit (R165, R168). -/
theorem owed_paid {ch : Channel} {s : State} (h : 0 < owed ch s) :
    owed ch (setCounter (paid ch s.counter) s) = owed ch s - 1 := by
  cases ch with
  | a =>
    dsimp only [owed] at h
    exact toInt_sub_one (by omega)
  | b =>
    dsimp only [owed] at h
    have hcounter : (s.counter + 1).toInt = s.counter.toInt + 1 := toInt_add_one (by omega)
    change -(s.counter + 1).toInt = -s.counter.toInt - 1
    omega

/-! ### The sub-steps -/

theorem exec_step_of_unfaulted {s : State} (h : s.fault = 0) : exec .step s = .next (schedEffect s) :=
  (exec_next_iff .step s _).2 ⟨h, rfl⟩

/-- R162, R163. -/
theorem schedEffect_issue {ch : Channel} {s : State} (h : s.sched = .inspect) (hpos : 0 < owed ch s) :
    schedEffect s = issuePulse ch (waitOf ch) s := by
  simp only [schedEffect, h, schedInspect]
  cases ch with
  | a => exact if_pos hpos
  | b =>
    have hneg : s.counter.toInt < 0 := Int.neg_pos.1 hpos
    rw [if_neg (by omega), if_pos hneg]
    rfl

/-- R169. -/
theorem schedEffect_idle {s : State} (h : s.sched = .inspect) (hzero : s.counter = 0) : schedEffect s = s := by
  simp [schedEffect, h, schedInspect, hzero]

/-- R164, R166. -/
theorem schedEffect_wait {ch : Channel} {s : State} (h : s.sched = waitOf ch) :
    schedEffect s = if (chanOf s ch).finished then setSched (commitOf ch) s else s := by
  rw [schedEffect, h]
  cases ch <;> rfl

/-- R165, R168. -/
theorem schedEffect_commit {ch : Channel} {s : State} (h : s.sched = commitOf ch) :
    schedEffect s = setSched .inspect (if 0 < owed ch s then setCounter (paid ch s.counter) s else s) := by
  rw [schedEffect, h]
  cases ch with
  | a => rfl
  | b => simp only [commitOf, schedCommitB, owed, paid, Int.neg_pos]

theorem faultCode_code_ne_zero (code : FaultCode) : code.code ≠ 0 := by
  cases code <;> decide

/-- The pulse INSPECT issues is the ARM of its durations; the control state moves on where the ARM did not fault (R14). -/
theorem issuePulse_eq {s u : State} {ch : Channel} (wait : SchedState)
    (harm : exec (.arm ch (requestedActive s.cfg ch) (requestedInactive s.cfg ch)) s = .next u) :
    issuePulse ch wait s = if u.fault = 0 then setSched wait u else u := by
  obtain ⟨hfault, rfl⟩ := (exec_next_iff ..).1 harm
  cases hcode : armFault ch (requestedActive s.cfg ch) (requestedInactive s.cfg ch) s with
  | none =>
    simp only [issuePulse, effectOf, armThen, hcode, id]
    exact (if_pos ((armEffect_outsideKept ..).fault.trans hfault)).symm
  | some code =>
    simp only [issuePulse, effectOf, armThen, hcode]
    exact (if_neg (faultCode_code_ne_zero code)).symm

/-! ### The configured durations -/

theorem durationsOf_wellFormed {c : Config} (h : c.wellFormed = true) (ch : Channel) :
    (durationsOf c ch).wellFormed = true := by
  simp only [Config.wellFormed, Bool.and_eq_true] at h
  obtain ⟨⟨⟨⟨-, hshared⟩, hpairs⟩, -⟩, -⟩ := h
  unfold durationsOf
  cases hp : c.perChannel with
  | none => exact hshared
  | some pair =>
    rw [hp] at hpairs
    obtain ⟨ha, hb⟩ := Bool.and_eq_true_iff.1 hpairs
    cases ch with
    | a => exact ha
    | b => exact hb

/-- A legal configuration's durations are ARM's operands as they are (R9, R88). -/
theorem requested_toNat {c : Config} (h : c.wellFormed = true) (ch : Channel) :
    (requestedActive c ch).toNat = (durationsOf c ch).active ∧
    (requestedInactive c ch).toNat = (durationsOf c ch).inactive := by
  have hbounds := durationsOf_wellFormed h ch
  simp only [Durations.wellFormed, Bool.and_eq_true, decide_eq_true_eq] at hbounds
  rw [requestedActive, requestedInactive, BitVec.toNat_ofNat, BitVec.toNat_ofNat]
  omega

theorem requested_ne_zero {c : Config} (h : c.wellFormed = true) (ch : Channel) :
    requestedActive c ch ≠ 0 ∧ requestedInactive c ch ≠ 0 := by
  have hbounds := durationsOf_wellFormed h ch
  obtain ⟨hactive, hinactive⟩ := requested_toNat h ch
  simp only [Durations.wellFormed, Bool.and_eq_true, decide_eq_true_eq] at hbounds
  constructor <;> intro e
  · rw [e, show (0 : U16).toNat = 0 from rfl] at hactive; omega
  · rw [e, show (0 : U16).toNat = 0 from rfl] at hinactive; omega

/-! ### With no host ARM -/

/-- Exclusivity as one clause: a channel in flight is the one the scheduler waits for (R171). -/
theorem schedExclusive_iff (s : State) : SchedExclusive s ↔ ∀ ch, inFlight s ch = true → s.sched = waitOf ch := by
  have hboth : (∀ ch, inFlight s ch = true → s.sched = waitOf ch) ↔
      (inFlight s .a = true → s.sched = .waitA) ∧ (inFlight s .b = true → s.sched = .waitB) :=
    ⟨fun h => ⟨h .a, h .b⟩, fun h ch => by cases ch; exacts [h.1, h.2]⟩
  rw [hboth, SchedExclusive]
  cases s.sched <;> simp

/-- What every operation but a host ARM keeps: the invariant, exclusivity, and no fault. -/
structure Scheduled (s : State) : Prop where
  inv : BlockInv s
  exclusive : SchedExclusive s
  unfaulted : s.fault = 0

theorem Scheduled.waits {s : State} (h : Scheduled s) {ch : Channel} (hf : inFlight s ch = true) : s.sched = waitOf ch :=
  (schedExclusive_iff s).1 h.exclusive ch hf

/-- Away from its wait state a channel is not in flight. -/
theorem Scheduled.idle {s : State} (h : Scheduled s) {ch : Channel} (hs : s.sched ≠ waitOf ch) : inFlight s ch = false :=
  Bool.eq_false_iff.2 fun hf => hs (h.waits hf)

theorem Scheduled.idle_of_inspect {s : State} (h : Scheduled s) (hs : s.sched = .inspect) (ch : Channel) :
    inFlight s ch = false :=
  h.idle (hs ▸ (waitOf_ne_inspect ch).symm)

/-- R171: at INSPECT the scheduler's ARM raises no fault. -/
theorem Scheduled.schedEffect_arms {s : State} (h : Scheduled s) (hs : s.sched = .inspect) {ch : Channel}
    (hpos : 0 < owed ch s) : schedEffect s =
      setSched (waitOf ch) (armEffect ch (requestedActive s.cfg ch) (requestedInactive s.cfg ch) s) := by
  obtain ⟨hact, hinact⟩ := requested_ne_zero h.inv.parameters ch
  have hnone := (armFault_none_iff ch _ _ s).2 ⟨h.idle_of_inspect hs _, h.idle_of_inspect hs _, hact, hinact⟩
  rw [schedEffect_issue hs hpos, issuePulse, armThen, hnone]

/-- An operation that may not arm a channel starts no flight of it (R121). -/
theorem inFlight_of_not_mayArm {i : Instr} {ch : Channel} {s : State} (h : ¬ MayArm ch i s)
    (hf : inFlight (effectOf i s) ch = true) : inFlight s ch = true := by
  rcases effectOf_flight_cases i ch s with hstill | ⟨harm, -⟩ | ⟨-, hflight, -⟩
  · exact hstill.kept.2.symm.trans hf
  · exact absurd harm h
  · exact hflight

/-- Where no channel may be armed and the control state stays, so does exclusivity. -/
theorem SchedExclusive.of_sched_eq {i : Instr} {s : State} (h : SchedExclusive s) (harm : ∀ ch, ¬ MayArm ch i s)
    (hs : (effectOf i s).sched = s.sched) : SchedExclusive (effectOf i s) :=
  (schedExclusive_iff _).2 fun ch hf => hs.trans ((schedExclusive_iff s).1 h ch (inFlight_of_not_mayArm (harm ch) hf))

/-- A scheduler step keeps exclusivity: it waits for the channel it arms, it leaves the wait only when that channel is
finished, and it commits with none in flight (R171). -/
theorem schedEffect_exclusive {s : State} (h : Scheduled s) : SchedExclusive (schedEffect s) := by
  refine (schedExclusive_iff _).2 fun c hf => ?_
  rcases sched_cases s.sched with hs | ⟨ch, hs | hs⟩
  · rcases counter_zero_or_owed s with hzero | ⟨ch, hpos⟩
    · rw [schedEffect_idle hs hzero] at hf ⊢
      exact h.waits hf
    · rw [h.schedEffect_arms hs hpos] at hf ⊢
      rcases channel_eq_or_other c ch with rfl | rfl
      · rfl
      · have hidle := (armEffect_flightKept_other ch (requestedActive s.cfg ch) (requestedInactive s.cfg ch) s).2
        exact absurd ((hidle.trans (h.idle_of_inspect hs _)).symm.trans hf) Bool.false_ne_true
  · rw [schedEffect_wait hs] at hf ⊢
    split at hf
    · next hfin =>
      have hc : c = ch := waitOf_inj ((h.waits hf).symm.trans hs)
      subst hc
      exact absurd (((h.inv.engineInv.channel c).finishedIdle hfin).symm.trans hf) Bool.false_ne_true
    · next hfin => rw [if_neg hfin]; exact h.waits hf
  · have hmay : ¬ MayArm c .step s := by simp [MayArm, hs]
    have hwait := h.waits (inFlight_of_not_mayArm (i := .step) hmay hf)
    exact absurd (hs.symm.trans hwait) (commitOf_ne_waitOf c ch)

theorem schedEffect_unfaulted {s : State} (h : Scheduled s) : (schedEffect s).fault = 0 := by
  rcases sched_cases s.sched with hs | ⟨ch, hs | hs⟩
  · rcases counter_zero_or_owed s with hzero | ⟨ch, hpos⟩
    · rw [schedEffect_idle hs hzero]; exact h.unfaulted
    · rw [h.schedEffect_arms hs hpos]; exact (armEffect_outsideKept ..).fault.trans h.unfaulted
  · rw [schedEffect_wait hs]; split <;> exact h.unfaulted
  · rw [schedEffect_commit hs]; split <;> exact h.unfaulted

theorem effectOf_scheduled {i : Instr} (hi : ∀ ch act inact, i ≠ .arm ch act inact) {s : State} (h : Scheduled s) :
    Scheduled (effectOf i s) := by
  have hinv := effectOf_blockInv i h.inv
  have hmay : i ≠ .step → ∀ ch, ¬ MayArm ch i s := by
    rintro hstep ch (⟨act, inact, e⟩ | ⟨e, -⟩)
    · exact hi ch act inact e
    · exact hstep e
  cases i with
  | sample raw =>
    exact ⟨hinv, h.exclusive.of_sched_eq (hmay (by simp)) (sampleEffect_sched raw s),
      (sampleEffect_fault raw s).trans h.unfaulted⟩
  | tick =>
    exact ⟨hinv, h.exclusive.of_sched_eq (hmay (by simp)) (tickEffect_outsideKept s).sched,
      (tickEffect_outsideKept s).fault.trans h.unfaulted⟩
  | arm ch act inact => exact absurd rfl (hi ch act inact)
  | poll ch => exact ⟨hinv, h.exclusive.of_sched_eq (hmay (by simp)) rfl, h.unfaulted⟩
  | step => exact ⟨hinv, schedEffect_exclusive h, schedEffect_unfaulted h⟩

/-- Settles O59: of the operations other than a host ARM, STEP alone arms a channel or moves the control state, and it keeps
to exclusivity. -/
theorem schedulerNeverOverlapsPulses : Obligations.SchedulerNeverOverlapsPulses := by
  intro i s t hinv hexclusive hi hexec
  obtain ⟨hfault, rfl⟩ := (exec_next_iff i s t).1 hexec
  obtain ⟨hinv', hexclusive', hfault'⟩ := effectOf_scheduled hi ⟨hinv, hexclusive, hfault⟩
  exact ⟨hinv', hexclusive', hfault'⟩

/-! ### The sub-steps as operations -/

/-- R162, R163 for either channel: STEP is the ARM, and the wait state where it did not fault. -/
theorem exec_step_issue {ch : Channel} {s : State} (hfault : s.fault = 0) (hs : s.sched = .inspect) (hpos : 0 < owed ch s) :
    ∃ u, exec (.arm ch (requestedActive s.cfg ch) (requestedInactive s.cfg ch)) s = .next u ∧
      exec .step s = .next (if u.fault = 0 then { u with sched := waitOf ch } else u) := by
  have harm := (exec_next_iff (.arm ch (requestedActive s.cfg ch) (requestedInactive s.cfg ch)) s _).2 ⟨hfault, rfl⟩
  exact ⟨_, harm, by rw [exec_step_of_unfaulted hfault, schedEffect_issue hs hpos, issuePulse_eq _ harm]; rfl⟩

/-- Settles O47: the sign of the counter is the channel owed a pulse, and the durations are the configured ones. -/
theorem inspectIssuesThePulse : Obligations.InspectIssuesThePulse := by
  intro s hfault hs
  refine ⟨fun hpos => exec_step_issue (ch := .a) hfault hs hpos,
    fun hneg => exec_step_issue (ch := .b) hfault hs (Int.neg_pos.2 hneg), fun hshared ch => ?_, fun da db hpairs => ?_⟩
  · simp [requestedActive, requestedInactive, durationsOf, hshared]
  · simp [requestedActive, requestedInactive, durationsOf, hpairs]

/-- Settles O48: at INSPECT a zero counter owes no pulse. -/
theorem inspectIdlesAtZero : Obligations.InspectIdlesAtZero := by
  intro s hfault hs hzero
  rw [exec_step_of_unfaulted hfault, schedEffect_idle hs hzero]

/-- Settles O49: both wait states are one wait on their channel. -/
theorem waitPollsFinished : Obligations.WaitPollsFinished := by
  intro s hfault
  rw [exec_step_of_unfaulted hfault]
  exact ⟨fun hs => congrArg _ (schedEffect_wait (ch := .a) hs), fun hs => congrArg _ (schedEffect_wait (ch := .b) hs)⟩

/-- Settles O50: both commits pay one unit of what their channel is owed. -/
theorem commitConsumesOneUnit : Obligations.CommitConsumesOneUnit := by
  intro s hfault
  rw [exec_step_of_unfaulted hfault]
  refine ⟨fun hs => ?_, fun hs => ?_⟩
  · rw [schedEffect_commit (ch := .a) hs, owed]
    split <;> rfl
  · simp only [schedEffect_commit (ch := .b) hs, owed, Int.neg_pos]
    split <;> rfl

/-- Settles O51: the scheduler idles, and with no channel in flight the timer is stopped. -/
theorem quiescentStateStays : Obligations.QuiescentStateStays := by
  intro s hinv hfault hquiet
  simp only [quiescent, Bool.and_eq_true, beq_iff_eq, Bool.not_eq_true'] at hquiet
  obtain ⟨⟨⟨hs, hzero⟩, ha⟩, hb⟩ := hquiet
  have hstopped : s.running = false := Bool.eq_false_iff.2 fun hrun => by
    simpa [ha, hb] using hinv.timerUsed hrun
  rw [exec_step_of_unfaulted hfault, exec_tick_of_unfaulted hfault, schedEffect_idle hs hzero, tick_stopped hstopped]
  exact ⟨rfl, rfl⟩

/-! ### The hold -/

theorem held_iff (s : State) : held s = true ↔ ∃ ch, s.sched = waitOf ch ∧ (chanOf s ch).finished = false := by
  have hch : (∃ ch, s.sched = waitOf ch ∧ (chanOf s ch).finished = false) ↔
      (s.sched = .waitA ∧ (chanOf s .a).finished = false) ∨ (s.sched = .waitB ∧ (chanOf s .b).finished = false) :=
    ⟨fun ⟨ch, h⟩ => by cases ch; exacts [.inl h, .inr h], fun h => h.elim (⟨.a, ·⟩) (⟨.b, ·⟩)⟩
  rw [hch, held]
  cases s.sched <;> simp

/-- A held scheduler does not move: STEP polls in vain, and no other operation writes the control state (R164, R193). -/
theorem effectOf_sched_of_held {i : Instr} {s t : State} (h : held s = true) (hexec : exec i s = .next t) :
    t.sched = s.sched := by
  obtain ⟨ch, hs, hfin⟩ := (held_iff s).1 h
  by_cases hi : i = .step
  · subst hi
    obtain ⟨-, rfl⟩ := (exec_next_iff ..).1 hexec
    rw [effectOf, schedEffect_wait hs, hfin]
    rfl
  · exact onlyStepMovesTheScheduler i s t hexec hi

/-- Settles O52: the control state stays, so the awaited channel is finished in the end, which the terminal handler alone
can do. -/
theorem onlyFinishLiftsTheHold : Obligations.OnlyFinishLiftsTheHold := by
  intro i s t hheld hexec hlifted
  obtain ⟨ch, hs, hfin⟩ := (held_iff s).1 hheld
  have hsched := (effectOf_sched_of_held hheld hexec).trans hs
  have hfin' : (chanOf t ch).finished = true := by
    by_contra hn
    rw [(held_iff t).2 ⟨ch, hsched, Bool.eq_false_iff.2 hn⟩] at hlifted
    cases hlifted
  obtain ⟨-, rfl⟩ := (exec_next_iff i s t).1 hexec
  rcases effectOf_flight_cases i ch s with hstill | ⟨-, ⟨-, hclear⟩, -⟩ | ⟨rfl, hflight, hreached, hserviced⟩
  · rw [hstill.kept.1, hfin] at hfin'
    cases hfin'
  · rw [hclear] at hfin'
    cases hfin'
  · rw [hserviced.finished, hfin] at hfin'
    refine ⟨rfl, ch, ?_, hflight, by simpa using hfin', hreached⟩
    cases ch with
    | a => exact .inl ⟨hs, rfl⟩
    | b => exact .inr ⟨hs, rfl⟩

end Sys2Proof.Machine
end

section
/-! The counter drains: on the schedule that ticks each pulse to its end, a round of STEPs and TICKs completes one pulse on
the channel the counter's sign chooses and pays one unit (R172). -/

namespace Sys2Proof.Machine

/-! ### Counting records -/

/-- `n` records of kind `k` are appended from `s` to `t`. -/
def Emits (k : TraceRecord → Bool) (n : Nat) (s t : State) : Prop := ∃ rs, Appends s t rs ∧ rs.countP k = n

theorem Emits.countP {k : TraceRecord → Bool} {n : Nat} {s t : State} {rs : List TraceRecord} (h : Emits k n s t)
    (happ : Appends s t rs) : rs.countP k = n := by
  obtain ⟨rs', happ', hn⟩ := h
  rw [List.append_cancel_left (happ.symm.trans happ'), hn]

theorem Emits.trans {k : TraceRecord → Bool} {m n : Nat} {s t u : State} (h : Emits k m s t) (h' : Emits k n t u) :
    Emits k (m + n) s u := by
  obtain ⟨rs, ht, hrs⟩ := h
  obtain ⟨rs', hu, hrs'⟩ := h'
  exact ⟨rs ++ rs', by rw [Appends, hu, ht, List.append_assoc], by rw [List.countP_append, hrs, hrs']⟩

theorem SilentOn.emits {k : TraceRecord → Bool} {s t : State} (h : SilentOn k s t) : Emits k 0 s t := by
  obtain ⟨rs, ht, hrs⟩ := h
  exact ⟨rs, ht, by rw [List.countP_eq_length_filter, hrs]; rfl⟩

/-- From `s` to `t` the parameters stay, channel `ch` is armed `armed` times and finished `finished` times, and the other
channel is never armed. -/
structure PulsesDone (ch : Channel) (armed finished : Nat) (s t : State) : Prop where
  cfg : t.cfg = s.cfg
  armed : Emits (isArmedOf ch) armed s t
  finished : Emits (· == .finished ch) finished s t
  otherArmed : Emits (isArmedOf (otherChannel ch)) 0 s t

theorem PulsesDone.refl (ch : Channel) (s : State) : PulsesDone ch 0 0 s s :=
  ⟨rfl, (SilentOn.refl _ s).emits, (SilentOn.refl _ s).emits, (SilentOn.refl _ s).emits⟩

theorem PulsesDone.trans {ch : Channel} {m n m' n' : Nat} {s t u : State} (h : PulsesDone ch m n s t)
    (h' : PulsesDone ch m' n' t u) : PulsesDone ch (m + m') (n + n') s u :=
  ⟨h'.cfg.trans h.cfg, h.armed.trans h'.armed, h.finished.trans h'.finished, h.otherArmed.trans h'.otherArmed⟩

/-! ### The ARM of a round -/

theorem armEffect_emits_armed (ch : Channel) (act inact : U16) (s : State) :
    Emits (isArmedOf ch) 1 s (armEffect ch act inact s) := by
  have hrecord : Emits (isArmedOf ch) 1 s (emit (.armed ch act inact) s) :=
    ⟨[.armed ch act inact], rfl, by simp [isArmedOf]⟩
  have hpin : SilentOn (isArmedOf ch) (emit (.armed ch act inact) s) (armEffect ch act inact s) :=
    (setPin_silentOn (fun _ => rfl) .active _).trans (.of_trace_eq (armEffect_trace_pin ch act inact s).1)
  exact hrecord.trans hpin.emits

theorem armEffect_silentOn_otherArmed (ch : Channel) (act inact : U16) (s : State) :
    SilentOn (isArmedOf (otherChannel ch)) s (armEffect ch act inact s) := by
  have hne : (ch == otherChannel ch) = false := beq_eq_false_iff_ne.2 (otherChannel_ne ch).symm
  exact armEffect_silentOn (fun _ => rfl) (fun _ _ => hne) act inact s

/-- An ARM followed by a move of the control state is one pulse armed (R127). -/
theorem armEffect_pulsesDone (ch : Channel) (act inact : U16) (c : SchedState) (s : State) :
    PulsesDone ch 1 0 s (setSched c (armEffect ch act inact s)) where
  cfg := (armEffect_outsideKept ch act inact s).cfg
  armed := armEffect_emits_armed ch act inact s
  finished := (armEffect_silentOn (fun _ => rfl) (fun _ _ => rfl) act inact s).emits
  otherArmed := (armEffect_silentOn_otherArmed ch act inact s).emits

/-- A pulse does not read the control state. -/
theorem PulseAt.setSched {ch : Channel} {s : State} {r : PulseRest} (h : PulseAt ch s r) (c : SchedState) :
    PulseAt ch (setSched c s) r := by
  cases h with
  | flying h =>
    exact .flying (s := Machine.setSched c s)
      ⟨h.unfaulted, h.lead, h.inv.congr ⟨_, rfl⟩ rfl rfl rfl rfl, h.flies, h.notSkipped, h.otherIdle⟩
  | done h => exact .done ⟨h.unfaulted, h.stopped, h.landed, h.finished, h.pinInactive⟩

/-! ### The TICKs of a round -/

/-- TICKs arm no channel (R121). -/
theorem iterate_tickEffect_silentOn_armed (c : Channel) (n : Nat) (s : State) :
    SilentOn (isArmedOf c) s (tickEffect^[n] s) :=
  Function.Iterate.rec (SilentOn (isArmedOf c) s) (.refl _ s) (fun _ => tickEffect_keeps
    (fun _ h => h.trans (.of_trace_eq rfl))
    (fun ch u h => h.trans (.of_trace_eq (consumeSkip_trace_pin ch u).1))
    (fun _ u h => h.trans (serviceMatch_silentOn (fun _ => rfl) (fun _ _ => rfl) rfl u))) n

theorem iterate_tickEffect_outsideKept (n : Nat) (s : State) : OutsideKept s (tickEffect^[n] s) :=
  Function.Iterate.rec (OutsideKept s) (.refl s) (fun t h => h.trans (tickEffect_outsideKept t)) n

/-- A whole pulse's ticks leave its channel finished, with one FINISHED record, and write nothing outside the engine
(R142). -/
theorem PulseAt.ticks_finish {ch : Channel} {act inact : U16} {s : State}
    (h : PulseAt ch s (afterMatch ch (armedChannel act inact))) :
    OutsideKept s (tickEffect^[act.toNat + inact.toNat] s) ∧
    (chanOf (tickEffect^[act.toNat + inact.toNat] s) ch).finished = true ∧
    PulsesDone ch 0 1 s (tickEffect^[act.toNat + inact.toNat] s) := by
  have hkept := iterate_tickEffect_outsideKept (act.toNat + inact.toNat) s
  have hsilent := fun c => (iterate_tickEffect_silentOn_armed c (act.toNat + inact.toNat) s).emits
  obtain ⟨r, hr, -, htotal, rs, happ, hrs⟩ := iterate_tickEffect_pulseMoves (act.toNat + inact.toNat) h
  rw [afterMatch_armedChannel] at htotal hrs
  rcases hr.flight with ⟨hleft, -⟩ | ⟨rfl, hfin, -⟩
  · dsimp only at htotal
    omega
  · have hown : ofUnit ch (.finished ch) = true := beq_self_eq_true ch
    obtain ⟨-, -, -, hfinished⟩ := inactiveRecords_others ch (lo act) inact
    have hcount : rs.count (.finished ch) = 1 := by
      rw [List.append_nil] at hrs
      rw [← List.count_filter hown, hrs]
      simp [matchRecords, List.count_replicate, hfinished]
    exact ⟨hkept, hfin, hkept.cfg, hsilent ch, ⟨rs, happ, hcount⟩, hsilent _⟩

/-! ### The STEPs of a round -/

/-- Once the awaited channel is finished, the wait ends and the commit pays one unit (R164 to R168). -/
theorem schedEffect_pays {ch : Channel} {s : State} (hs : s.sched = waitOf ch) (hfin : (chanOf s ch).finished = true)
    (hpos : 0 < owed ch s) :
    (schedEffect (schedEffect s)).sched = .inspect ∧ owed ch (schedEffect (schedEffect s)) = owed ch s - 1 ∧
    PulsesDone ch 0 0 s (schedEffect (schedEffect s)) := by
  have hpos' : 0 < owed ch (setSched (commitOf ch) s) := (owed_congr ch rfl).symm ▸ hpos
  have e : schedEffect (schedEffect s) =
      setSched .inspect (setCounter (paid ch s.counter) (setSched (commitOf ch) s)) := by
    rw [schedEffect_wait hs, if_pos hfin, schedEffect_commit rfl, if_pos hpos']
    rfl
  have hsilent : ∀ k : TraceRecord → Bool, (∀ v, k (.counter v) = false) →
      SilentOn k s (schedEffect (schedEffect s)) := fun k hk => e ▸ ⟨[.counter (paid ch s.counter)], rfl, by simp [hk]⟩
  refine ⟨by rw [e]; rfl, ?_, by rw [e]; rfl, (hsilent _ fun _ => rfl).emits, (hsilent _ fun _ => rfl).emits,
    (hsilent _ fun _ => rfl).emits⟩
  rw [← owed_paid hpos]
  exact owed_congr ch (by rw [e]; rfl)

/-! ### A round -/

/-- At INSPECT at the default lead, `n` pulses are owed to channel `ch`. -/
structure Owes (ch : Channel) (n : Nat) (s : State) : Prop where
  scheduled : Scheduled s
  lead : s.cfg.minLead = 1
  inspects : s.sched = .inspect
  count : owed ch s = n

/-- The state after a round of `n` TICKs: INSPECT's STEP, the TICKs, the wait's STEP and the commit's (R161). -/
def afterRound (n : Nat) (s : State) : State := schedEffect (schedEffect (tickEffect^[n] (schedEffect s)))

/-- A round completes and keeps what every operation but a host ARM keeps. -/
theorem Scheduled.runOps_round {s : State} (h : Scheduled s) (n : Nat) :
    runOps (.step :: ticksOps n ++ [.step, .step]) s = .next (afterRound n s) ∧ Scheduled (afterRound n s) := by
  have hstep : ∀ {t : State}, Scheduled t → Scheduled (schedEffect t) := effectOf_scheduled (i := .step) (by simp)
  have hticks : Scheduled (tickEffect^[n] (schedEffect s)) :=
    Function.Iterate.rec Scheduled (hstep h) (fun _ => effectOf_scheduled (i := .tick) (by simp)) n
  refine ⟨?_, hstep (hstep hticks)⟩
  rw [List.cons_append, runOps_cons_of_unfaulted h.unfaulted]
  refine (runOps_append (runOps_ticksOps n (hstep h).unfaulted)).trans ?_
  rw [runOps_cons_of_unfaulted hticks.unfaulted]
  exact runOps_cons_of_unfaulted (hstep hticks).unfaulted .step []

/-- INSPECT's STEP arms the channel the counter owes a pulse to (R162, R163). -/
theorem Owes.issue {ch : Channel} {n : Nat} {s : State} (h : Owes ch (n + 1) s) :
    (schedEffect s).sched = waitOf ch ∧ owed ch (schedEffect s) = owed ch s ∧
    PulseAt ch (schedEffect s) (afterMatch ch (armedChannel (requestedActive s.cfg ch) (requestedInactive s.cfg ch))) ∧
    PulsesDone ch 1 0 s (schedEffect s) := by
  obtain ⟨hact, hinact⟩ := requested_ne_zero h.scheduled.inv.parameters ch
  have hpulse := armEffect_pulseAt (ch := ch) h.scheduled.unfaulted h.lead.le
    (h.scheduled.idle_of_inspect h.inspects _) hact hinact
  rw [h.scheduled.schedEffect_arms h.inspects (by rw [h.count]; omega)]
  exact ⟨rfl, owed_congr ch (armEffect_outsideKept ..).counter, hpulse.setSched _, armEffect_pulsesDone ..⟩

/-- A round pays one unit with one pulse on the channel it is owed to (R172). -/
theorem Owes.round {ch : Channel} {n : Nat} {s : State} (h : Owes ch (n + 1) s) :
    ∃ t, runOps (.step :: ticksOps ((durationsOf s.cfg ch).active + (durationsOf s.cfg ch).inactive) ++ [.step, .step]) s =
        .next t ∧ Owes ch n t ∧ PulsesDone ch 1 1 s t := by
  obtain ⟨hactive, hinactive⟩ := requested_toNat h.scheduled.inv.parameters ch
  rw [← hactive, ← hinactive]
  obtain ⟨hrun, hscheduled⟩ :=
    h.scheduled.runOps_round ((requestedActive s.cfg ch).toNat + (requestedInactive s.cfg ch).toNat)
  obtain ⟨hwait, howed, hpulse, hissued⟩ := h.issue
  obtain ⟨hkept, hfin, hticked⟩ := hpulse.ticks_finish
  have hcount := (owed_congr ch hkept.counter).trans (howed.trans h.count)
  obtain ⟨hinspects, hpaid, hcommitted⟩ := schedEffect_pays (hkept.sched.trans hwait) hfin (by omega)
  have hdone := (hissued.trans hticked).trans hcommitted
  have hlead := (congrArg Config.minLead hdone.cfg).trans h.lead
  exact ⟨_, hrun, ⟨hscheduled, hlead, hinspects, hpaid.trans (by omega)⟩, hdone⟩

/-! ### All the rounds -/

/-- As many rounds as pulses are owed pay them all (R172). -/
theorem Owes.rounds {ch : Channel} {n : Nat} {s : State} (h : Owes ch n s) :
    ∃ t, runOps (List.replicate n
        (.step :: ticksOps ((durationsOf s.cfg ch).active + (durationsOf s.cfg ch).inactive) ++ [.step, .step])).flatten s =
        .next t ∧ Owes ch 0 t ∧ PulsesDone ch n n s t := by
  induction n generalizing s with
  | zero => exact ⟨s, rfl, h, .refl ch s⟩
  | succ n ih =>
    obtain ⟨t, hround, howes, hdone⟩ := h.round
    obtain ⟨u, hrun, hpaid, hall⟩ := ih howes
    rw [hdone.cfg] at hrun
    rw [List.replicate_succ, List.flatten_cons, runOps_append hround, Nat.add_comm n 1]
    exact ⟨u, hrun, hpaid, hdone.trans hall⟩

/-- R172 for either channel. -/
theorem Owes.drains {ch : Channel} {n : Nat} {s : State} (h : Owes ch n s) :
    ∃ t rs, runOps (List.replicate n
        (.step :: ticksOps ((durationsOf s.cfg ch).active + (durationsOf s.cfg ch).inactive) ++ [.step, .step])).flatten s =
        .next t ∧
      Appends s t rs ∧ rs.count (.finished ch) = n ∧ rs.countP (isArmedOf ch) = n ∧
      rs.countP (isArmedOf (otherChannel ch)) = 0 ∧
      t.counter = 0 ∧ t.sched = .inspect ∧ inFlight t .a = false ∧ inFlight t .b = false := by
  obtain ⟨t, hrun, hpaid, hdone⟩ := h.rounds
  obtain ⟨rs, happ, harmed⟩ := hdone.armed
  exact ⟨t, rs, hrun, happ, hdone.finished.countP happ, harmed, hdone.otherArmed.countP happ,
    counter_zero_of_owed hpaid.count, hpaid.inspects, hpaid.scheduled.idle_of_inspect hpaid.inspects .a,
    hpaid.scheduled.idle_of_inspect hpaid.inspects .b⟩

theorem scheduled_of_inspect_idle {s : State} (hinv : BlockInv s) (hfault : s.fault = 0) (hs : s.sched = .inspect)
    (ha : inFlight s .a = false) (hb : inFlight s .b = false) : Scheduled s :=
  ⟨hinv, by rw [SchedExclusive, hs]; exact ⟨ha, hb⟩, hfault⟩

/-- Settles O55: a counter of `k` owes `k` pulses to channel A, and each round pays one. -/
theorem positiveCounterDrainsOnChannelA : Obligations.PositiveCounterDrainsOnChannelA := by
  intro s k hinv hfault hlead hs ha hb hcount
  exact Owes.drains (ch := .a) ⟨scheduled_of_inspect_idle hinv hfault hs ha hb, hlead, hs, hcount⟩

/-- Settles O56: a counter of `-k` owes `k` pulses to channel B, and each round pays one. -/
theorem negativeCounterDrainsOnChannelB : Obligations.NegativeCounterDrainsOnChannelB := by
  intro s k hinv hfault hlead hs ha hb hcount
  have howed : owed .b s = k := by rw [owed, hcount, Int.neg_neg]
  exact Owes.drains (ch := .b) ⟨scheduled_of_inspect_idle hinv hfault hs ha hb, hlead, hs, howed⟩

end Sys2Proof.Machine
end

section
/-! Faults: what raises one, what it discards, and the launch's check that keeps ZERO_DURATION away (R14, R181 to R188). -/

namespace Sys2Proof

theorem Durations.wellFormed_iff (d : Durations) : d.wellFormed = true ↔
    1 ≤ d.active ∧ d.active ≤ 65535 ∧ 1 ≤ d.inactive ∧ d.inactive ≤ 65535 := by
  simp only [Durations.wellFormed, Bool.and_eq_true, decide_eq_true_eq, and_assoc]

/-- R9's constraints, one by one, with the same bounds on R10's separate pairs (log entry 7). -/
theorem Config.wellFormed_iff (c : Config) : c.wellFormed = true ↔
    1 ≤ c.counterLimit ∧ c.counterLimit ≤ 127 ∧ 1 ≤ c.activeTicks ∧ c.activeTicks ≤ 65535 ∧
      1 ≤ c.inactiveTicks ∧ c.inactiveTicks ≤ 65535 ∧ 1 ≤ c.prescale ∧ 1 ≤ c.minLead ∧
      ∀ da db, c.perChannel = some (da, db) →
        1 ≤ da.active ∧ da.active ≤ 65535 ∧ 1 ≤ da.inactive ∧ da.inactive ≤ 65535 ∧
        1 ≤ db.active ∧ db.active ≤ 65535 ∧ 1 ≤ db.inactive ∧ db.inactive ≤ 65535 := by
  simp only [Config.wellFormed, Bool.and_eq_true, decide_eq_true_eq, Durations.wellFormed_iff]
  cases c.perChannel with
  | none => simp only [and_true, reduceCtorEq, IsEmpty.forall_iff, implies_true]; omega
  | some pair =>
    obtain ⟨da, db⟩ := pair
    simp only [Bool.and_eq_true, Durations.wellFormed_iff, Option.some.injEq, Prod.mk.injEq, and_imp,
      forall_apply_eq_imp_iff, forall_eq']
    omega

end Sys2Proof

namespace Sys2Proof.Machine

/-! ### The faults of ARM -/

theorem armFault_rearmInFlight_iff (ch : Channel) (act inact : U16) (s : State) :
    armFault ch act inact s = some .rearmInFlight ↔ inFlight s ch = true := by
  unfold armFault
  cases inFlight s ch <;> cases inFlight s (otherChannel ch) <;> simp

theorem armFault_overlap_iff (ch : Channel) (act inact : U16) (s : State) :
    armFault ch act inact s = some .overlap ↔ inFlight s ch = false ∧ inFlight s (otherChannel ch) = true := by
  unfold armFault
  cases inFlight s ch <;> cases inFlight s (otherChannel ch) <;> simp

theorem armFault_zeroDuration_iff (ch : Channel) (act inact : U16) (s : State) :
    armFault ch act inact s = some .zeroDuration ↔
      inFlight s ch = false ∧ inFlight s (otherChannel ch) = false ∧ (act = 0 ∨ inact = 0) := by
  unfold armFault
  cases inFlight s ch <;> cases inFlight s (otherChannel ch) <;> simp [or_iff_not_imp_left]

/-- The host's ARM with a fault is that fault alone (R127, R14). -/
theorem exec_arm_of_armFault {ch : Channel} {act inact : U16} {s : State} {code : FaultCode} (hfault : s.fault = 0)
    (h : armFault ch act inact s = some code) : exec (.arm ch act inact) s = .next (raiseFault code ch s) :=
  (exec_next_iff ..).2 ⟨hfault, by rw [effectOf, armThen, h]⟩

/-- Settles O16: R192's order is that of ARM's tests. -/
theorem armFaultsInOrder : Obligations.ArmFaultsInOrder := fun ch act inact s hfault =>
  ⟨fun hch => exec_arm_of_armFault hfault ((armFault_rearmInFlight_iff ch act inact s).2 hch),
    fun hch hother => exec_arm_of_armFault hfault ((armFault_overlap_iff ch act inact s).2 ⟨hch, hother⟩),
    fun hch hother hzero =>
      exec_arm_of_armFault hfault ((armFault_zeroDuration_iff ch act inact s).2 ⟨hch, hother, hzero⟩)⟩

/-! ### What an operation that faults did -/

/-- The operation makes this ARM: the host's, or the one INSPECT issues for the counter with the configured durations (R127,
R162, R163, R88). -/
def MakesArm (ch : Channel) (act inact : U16) (i : Instr) (s : State) : Prop :=
  i = .arm ch act inact ∨
  (i = .step ∧ s.sched = .inspect ∧ 0 < owed ch s ∧ act = requestedActive s.cfg ch ∧ inact = requestedInactive s.cfg ch)

/-- What follows an ARM in its step does not touch the fault code, so a fault is the ARM's own (R188). -/
theorem armThen_fault_cases (ch : Channel) (act inact : U16) {after : State → State} (s : State)
    (hafter : ∀ u, (after u).fault = u.fault) :
    (armThen ch act inact after s).fault = s.fault ∨
    ∃ code, armFault ch act inact s = some code ∧ armThen ch act inact after s = raiseFault code ch s := by
  rcases armThen_cases ch act inact after s with ⟨-, e⟩ | hraised
  · rw [e, hafter]
    exact .inl (armEffect_outsideKept ch act inact s).fault
  · exact .inr hraised

/-- Every operation keeps the fault code, but for an ARM it makes, whose fault is then all that it does (R188, R14). -/
theorem effectOf_fault_cases (i : Instr) (s : State) :
    (effectOf i s).fault = s.fault ∨
    ∃ ch act inact code, MakesArm ch act inact i s ∧ armFault ch act inact s = some code ∧
      effectOf i s = raiseFault code ch s := by
  cases i with
  | sample raw => exact .inl (sampleEffect_fault raw s)
  | tick => exact .inl (tickEffect_outsideKept s).fault
  | arm ch act inact =>
    exact (armThen_fault_cases ch act inact s fun _ => rfl).imp_right
      fun ⟨code, hcode, e⟩ => ⟨ch, act, inact, code, .inl rfl, hcode, e⟩
  | poll ch => exact .inl rfl
  | step =>
    rw [effectOf]
    rcases sched_cases s.sched with hs | ⟨ch, hs | hs⟩
    · rcases counter_zero_or_owed s with hzero | ⟨ch, hpos⟩
      · rw [schedEffect_idle hs hzero]
        exact .inl rfl
      · rw [schedEffect_issue hs hpos]
        exact (armThen_fault_cases ch _ _ (after := setSched (waitOf ch)) s fun _ => rfl).imp_right
          fun ⟨code, hcode, e⟩ => ⟨ch, _, _, code, .inr ⟨rfl, hs, hpos, rfl, rfl⟩, hcode, e⟩
    · rw [schedEffect_wait hs]
      split <;> exact .inl rfl
    · rw [schedEffect_commit hs]
      split <;> exact .inl rfl

theorem counter_ne_zero_of_owed {ch : Channel} {s : State} (h : 0 < owed ch s) : s.counter ≠ 0 := by
  intro hzero
  cases ch <;> simp [owed, hzero] at h

/-- Settles O15: the block was not faulted before, so the fault is that of an ARM the operation makes. -/
theorem onlyArmsFault : Obligations.OnlyArmsFault := by
  intro i s t hexec hfaulted
  obtain ⟨hfault, rfl⟩ := (exec_next_iff i s t).1 hexec
  rcases effectOf_fault_cases i s with hkept | ⟨ch, act, inact, -, hmakes, -, -⟩
  · exact absurd (hkept.trans hfault) hfaulted
  · exact hmakes.imp (fun e => ⟨ch, act, inact, e⟩) fun ⟨hstep, hs, hpos, _⟩ =>
      ⟨hstep, hs, counter_ne_zero_of_owed hpos⟩

/-! ### A faulted block -/

theorem step_unfaulted {s t : State} (h : step s = .next t) : s.fault = 0 := by
  rcases step_next_cases h with ⟨-, -, -, hfault, -⟩ | ⟨-, -, -, hfault, -⟩ <;> exact hfault

/-- Settles O13: a step that faults is one raised fault on the rest of the stream, and no next state begins faulted. -/
theorem faultsDiscardTheStepAndStopTheBlock : Obligations.FaultsDiscardTheStepAndStopTheBlock := by
  refine ⟨fun s t hstep => ⟨step_unfaulted hstep, fun hfaulted => ?_⟩, fun i s hfaulted => ?_, fun s hfaulted => ?_⟩
  · rcases step_next_cases hstep with ⟨i, rest, -, hfault, rfl⟩ | ⟨-, rest, -, -, rfl⟩
    · rcases effectOf_fault_cases i { s with input := rest } with hkept | ⟨ch, -, -, code, -, -, e⟩
      · exact absurd (hkept.trans hfault) hfaulted
      · exact ⟨ch, by rw [e]; rfl⟩
    · exact ⟨.a, rfl⟩
  · rw [exec_eq_completes, completes_of_faulted _ hfaulted]
  · cases hstep : step s with
    | next t => exact absurd (step_unfaulted hstep) hfaulted
    | fault r => nomatch r
    | refused why => exact ⟨why, rfl⟩

/-! ### The launch's check -/

theorem launch_refused_iff (c : Config) : launch c = .refused .badConfiguration ↔ ¬ c.wellFormed = true := by
  unfold launch
  split
  · next h => exact ⟨(fun e => nomatch e), absurd h⟩
  · next h => exact ⟨fun _ => h, fun _ => rfl⟩

theorem eq_zeroDuration_of_code (code : FaultCode) : code.code = 2 → code = .zeroDuration := by
  cases code <;> decide

/-- Settles O11: the check is R9's constraints, and the durations INSPECT asks for are then not zero. -/
theorem brokenConfigurationIsRefused : Obligations.BrokenConfigurationIsRefused := by
  refine ⟨fun c => (launch_refused_iff c).trans (not_congr (Config.wellFormed_iff c)), fun s t hlegal hexec htwo => ?_⟩
  obtain ⟨hfault, rfl⟩ := (exec_next_iff .step s t).1 hexec
  rcases effectOf_fault_cases .step s with hkept | ⟨ch, act, inact, code, hmakes, hcode, e⟩
  · rw [hkept, hfault] at htwo
    exact absurd htwo (by decide)
  · obtain ⟨-, -, -, rfl, rfl⟩ := hmakes.resolve_left fun e => nomatch e
    have hzero : code = .zeroDuration := eq_zeroDuration_of_code code (by rwa [e] at htwo)
    subst hzero
    obtain ⟨-, -, hact | hinact⟩ := (armFault_zeroDuration_iff ..).1 hcode
    · exact (requested_ne_zero hlegal ch).1 hact
    · exact (requested_ne_zero hlegal ch).2 hinact

end Sys2Proof.Machine
end

section
/-! The decoder beside the engine: a SAMPLE and a TICK touch disjoint state, and commute (R63, R194). -/

namespace Sys2Proof.Machine

/-! ### The engine beside any decoder -/

/-- The block `s` with the history, the accumulator and the counter of `d`, and its records put after those of `d`. -/
def withDecoder (d s : State) : State :=
  { s with hist := d.hist, acc := d.acc, counter := d.counter, trace := d.trace ++ s.trace }

section
variable (d : State) (ch : Channel) (s : State)

theorem emit_withDecoder (r : TraceRecord) : emit r (withDecoder d s) = withDecoder d (emit r s) := by
  simp only [emit, withDecoder, List.append_assoc]

theorem consumeSkip_withDecoder : consumeSkip ch (withDecoder d s) = withDecoder d (consumeSkip ch s) := by
  unfold consumeSkip
  rw [apply_ite (withDecoder d)]
  rfl

theorem outputAction_withDecoder : outputAction ch (withDecoder d s) = withDecoder d (outputAction ch s) := by
  rw [outputAction_eq, outputAction_eq]
  simp only [withDecoder, List.append_assoc]
  rfl

theorem handler_withDecoder (p : Phase) : handler p ch (withDecoder d s) = withDecoder d (handler p ch s) := by
  cases p with
  | activeStart =>
    rw [handler, handler, activeDecide_eq, activeDecide_eq, apply_ite (withDecoder d)]
    rfl
  | inactiveStart =>
    rw [handler, handler, inactiveStart_eq, inactiveStart_eq, apply_ite (withDecoder d)]
    rfl
  | inactiveContinue =>
    rw [handler, handler, inactiveContinue_eq, inactiveContinue_eq, apply_ite (withDecoder d)]
    rfl
  | inactiveFinish =>
    rw [handler, handler, inactiveFinish_eq, inactiveFinish_eq]
    simp only [withDecoder, List.append_assoc]
    rfl

theorem interruptOnMatch_withDecoder : interruptOnMatch ch (withDecoder d s) = withDecoder d (interruptOnMatch ch s) := by
  unfold interruptOnMatch
  rw [apply_ite (withDecoder d), ← handler_withDecoder, ← emit_withDecoder]
  rfl

theorem serviceMatch_withDecoder : serviceMatch ch (withDecoder d s) = withDecoder d (serviceMatch ch s) := by
  rw [serviceMatch, serviceMatch, outputAction_withDecoder, interruptOnMatch_withDecoder]

theorem servicedIf_withDecoder (b : Bool) : (if b then serviceMatch ch (withDecoder d s) else withDecoder d s) =
    withDecoder d (if b then serviceMatch ch s else s) := by
  rw [serviceMatch_withDecoder, apply_ite (withDecoder d)]

theorem serviceUnits_withDecoder : serviceUnits (withDecoder d s) = withDecoder d (serviceUnits s) := by
  have hmatches : ∀ ch, matchesNow (withDecoder d s) ch = matchesNow s ch := fun _ => rfl
  unfold serviceUnits
  dsimp only
  rw [hmatches, hmatches, consumeSkip_withDecoder, consumeSkip_withDecoder, servicedIf_withDecoder,
    servicedIf_withDecoder]

/-- A TICK neither reads nor writes what is the decoder's, and it appends the same records after any trace (R194). -/
theorem tickEffect_withDecoder : tickEffect (withDecoder d s) = withDecoder d (tickEffect s) := by
  unfold tickEffect
  rw [apply_ite (withDecoder d), ← serviceUnits_withDecoder]
  rfl

end

/-- A TICK does one thing `e` to the block's engine, and does it beside any values of the decoder's fields and after any
trace. -/
theorem exists_tickEffect_eq_withDecoder (s : State) : ∃ e, e.cfg = s.cfg ∧ e.fault = s.fault ∧
    ∀ d, d = { s with hist := d.hist, acc := d.acc, counter := d.counter, trace := d.trace } →
      tickEffect d = withDecoder d e := by
  have houtside := tickEffect_outsideKept { s with trace := [] }
  refine ⟨_, houtside.cfg, houtside.fault, fun d hd => ?_⟩
  have hbeside : withDecoder d { s with trace := [] } = d := by
    rw [withDecoder, List.append_nil]
    exact hd.symm
  rw [← tickEffect_withDecoder, hbeside]

/-! ### The decoder beside any engine -/

/-- A SAMPLE reads the parameters and the decoder's three fields alone: beside another engine `e` it appends the same records
and leaves that engine as it is (R112, R194). -/
theorem sampleEffect_withDecoder (raw : U2) {s e : State} (hs : s.fault = 0) (he : e.fault = 0) (hcfg : e.cfg = s.cfg) :
    ∃ rs, Appends s (sampleEffect raw s) rs ∧ Appends (withDecoder s e) (sampleEffect raw (withDecoder s e)) rs ∧
      sampleEffect raw (withDecoder s e) =
        { withDecoder (sampleEffect raw s) e with trace := (sampleEffect raw (withDecoder s e)).trace } := by
  obtain ⟨hhist, hacc, hcounter, ⟨rs, hrs, hrs'⟩, -⟩ :=
    sampleIsAFunctionOfTheDecoderState raw s (withDecoder s e) (sampleEffect raw s) (sampleEffect raw (withDecoder s e))
      hcfg rfl rfl rfl ((exec_next_iff ..).2 ⟨hs, rfl⟩) ((exec_next_iff ..).2 ⟨he, rfl⟩)
  have heq := sampleEffect_eq raw (withDecoder s e)
  rw [hhist, hacc, hcounter] at heq
  exact ⟨rs, hrs, hrs', heq⟩

/-! ### The two orders -/

theorem runOps_pair {i j : Instr} {s : State} (hs : s.fault = 0) (hi : (effectOf i s).fault = 0) :
    runOps [i, j] s = .next (effectOf j (effectOf i s)) := by
  rw [runOps_cons_of_unfaulted hs, runOps_cons_of_unfaulted hi]
  rfl

/-- Settles O54: the TICK does the same to the engine beside the decoder before the SAMPLE and after it, and the SAMPLE the
same to the decoder beside the engine before the TICK and after it. -/
theorem sampleAndTickCommute : Obligations.SampleAndTickCommute := by
  intro raw s hfault
  obtain ⟨e, hcfg, he, hbeside⟩ := exists_tickEffect_eq_withDecoder s
  have htick : tickEffect s = withDecoder s e := hbeside s rfl
  have htickAfter : tickEffect (sampleEffect raw s) = withDecoder (sampleEffect raw s) e :=
    hbeside _ (sampleEffect_eq raw s)
  obtain ⟨rs, hrs, hrsAfter, hsampleAfter⟩ := sampleEffect_withDecoder raw hfault (he.trans hfault) hcfg
  refine ⟨sampleEffect raw s, tickEffect s, tickEffect (sampleEffect raw s), sampleEffect raw (tickEffect s), rs, e.trace,
    (exec_next_iff ..).2 ⟨hfault, rfl⟩, hrs, exec_tick_of_unfaulted hfault, ?_,
    runOps_pair hfault ((sampleEffect_fault raw s).trans hfault),
    runOps_pair hfault ((tickEffect_outsideKept s).fault.trans hfault), ?_, ?_, ?_⟩
  · rw [htick]; rfl
  · rw [htickAfter, Appends, ← List.append_assoc, ← hrs]; rfl
  · rw [htick, Appends, hrsAfter, ← List.append_assoc]; rfl
  · rw [htick, htickAfter]; exact hsampleAfter

end Sys2Proof.Machine
end

section
/-! The launch and the parameters: what a launch answers, and that no step changes the parameters (R210, R213). -/

namespace Sys2Proof.Machine

/-- Inversion of `launch`: the only state it answers is the reset state under the given parameters (R186, R210). -/
theorem launch_next_iff (c : Config) (s : State) : launch c = .next s ↔ c.wellFormed = true ∧ s = State.initial c := by
  unfold launch
  split
  · next h => exact ⟨fun e => ⟨h, (Host.Outcome.next.inj e).symm⟩, fun e => congrArg _ e.2.symm⟩
  · next h => exact ⟨(fun e => nomatch e), fun e => absurd e.1 h⟩

/-- No operation changes the parameters, an ARM that faults included (R213). -/
theorem effectOf_cfg (i : Instr) (s : State) : (effectOf i s).cfg = s.cfg := by
  cases i with
  | sample raw => exact sampleEffect_cfg raw s
  | tick => exact (tickEffect_outsideKept s).cfg
  | arm ch act inact => exact (armThen_faultFrame ch act inact s fun _ => ⟨rfl, rfl, rfl⟩).cfg
  | poll ch => exact emit_cfg ..
  | step => exact (schedEffect_faultFrame s).cfg

/-- Settles O12: a step is an operation's effect or the fault of an illegal word, and both keep the parameters, which the
launch wrote into the state. -/
theorem noOperationChangesTheParameters : Obligations.NoOperationChangesTheParameters := by
  refine ⟨fun s t hstep => ?_, fun c s hlaunch => ?_⟩
  · rcases step_next_cases hstep with ⟨i, rest, -, -, rfl⟩ | ⟨-, rest, -, -, rfl⟩
    · exact effectOf_cfg i { s with input := rest }
    · exact raiseFault_cfg .illegalOp .a { s with input := rest }
  · obtain ⟨-, rfl⟩ := (launch_next_iff c s).1 hlaunch
    rfl

/-! ### The reset state, channel by channel -/

@[simp] theorem cmpOf_initial (c : Config) (ch : Channel) : cmpOf (State.initial c) ch = CompareUnit.reset := by
  cases ch <;> rfl

@[simp] theorem chanOf_initial (c : Config) (ch : Channel) : chanOf (State.initial c) ch = ChannelState.reset := by
  cases ch <;> rfl

@[simp] theorem pinOf_initial (c : Config) (ch : Channel) : pinOf (State.initial c) ch = .inactive := by
  cases ch <;> rfl

/-- Settles O10: the launched state is R210's, whose two compare units, channels and pins have the same values. -/
theorem resetStateIsTheSpecs : Obligations.ResetStateIsTheSpecs := by
  intro c s hlaunch
  obtain ⟨-, rfl⟩ := (launch_next_iff c s).1 hlaunch
  refine ⟨rfl, rfl, rfl, rfl, rfl, rfl, fun ch => ?_, fun ch => ?_, pinOf_initial c, rfl, rfl, rfl⟩
  · rw [cmpOf_initial]
    exact ⟨rfl, rfl, rfl, rfl⟩
  · rw [chanOf_initial]
    exact ⟨rfl, rfl, rfl, rfl, rfl⟩

end Sys2Proof.Machine
end
